-- ==== Sys2Proof/Word.lean ====
section
/-! DEFINITION. The value types of the spec: bytes, 16-bit GPIO values, 32-bit request words (spec R11: all unsigned). -/

namespace Sys2Proof

/-- A byte: a serial byte, a frame byte, an RTC command byte, an 8-bit GPIO byte address. -/
abbrev Byte := BitVec 8

/-- A 16-bit GPIO register value (spec R32). -/
abbrev Half := BitVec 16

/-- A 32-bit request word (spec R90), or a frame's 32-bit address (spec R80). -/
abbrev Word := BitVec 32

end Sys2Proof
end

