-- ==== Sys2Proof/Config.lean ====
section
/-! DEFINITION. What an implementation fixes (spec R9, R10), and the free values: opaque constants with no body. -/

namespace Sys2Proof

/-- How the far end's delivery of one response ended when it was too short to complete it (spec R62). -/
inductive LinkEnd where
  /-- No byte came any more and the configured timeout elapsed. -/
  | timeout
  /-- The stream was closed. -/
  | closed
  deriving DecidableEq, Repr, Inhabited

/-- What the link brings in answer to one frame: the bytes that arrive, and how the delivery ends (spec R62). The bytes
alone decide when they suffice; `ending` decides the failure when they do not (log 4). -/
structure LinkAnswer where
  bytes : List Byte
  ending : LinkEnd
  deriving DecidableEq, Repr, Inhabited

/-- The parameters the source leaves open and a rule reads (spec R10, D8): the data-phase lengths of 0x66/0x67 and of
0x68/0x69, each not given (`none`) or in 0..7. They are held in State and no step changes them (log 6). -/
structure Params where
  nTime : Option (Fin 8)
  nAlarm : Option (Fin 8)
  deriving DecidableEq, Repr

namespace Config

/-- Byte address of the Data register (spec R9, R33). -/
abbrev gpioData : Byte := 0xC4#8
/-- Byte address of the Control/Direction register (spec R9, R34). -/
abbrev gpioCtrl : Byte := 0xC6#8
/-- Byte address of the Read-Enable register (spec R9, R35). -/
abbrev gpioRe : Byte := 0xC8#8

/-- `RBUF_BYTES`, the size of the raw read buffer (spec R10, D4). -/
abbrev rbufBytes : Nat := 16

/-- `READ_SIO_DRIVE`, the SIO bit written during read bits (spec R10, D6). -/
abbrev readSioDrive : Bool := false

/-- `CLOSE_SEQ`, the Data values of the two Close pulses (spec R10, R186, D7). -/
abbrev closeSeq : List Half := [0x0001#16, 0x0005#16, 0x0001#16, 0x0005#16]

/-- FREE VALUE (DESIGN CHOICE, safe, log 4): the link oracle's n-th draw, when no answer has been given from outside
(spec R62: "the outcome, and every response byte, is a free draw of the link oracle"). -/
opaque linkDraw : Nat → LinkAnswer

/-- FREE VALUE (DESIGN CHOICE, safe, log 3): byte k of the engine's buffers after a reset during a run, at draw n
(spec R38, R290: `BUF` and `RBUF` unspecified). -/
opaque unspecifiedByte : Nat → Nat → Byte

/-- FREE VALUE (DESIGN CHOICE, safe, log 16): `H24FromCache` of a buffer too short to have a byte 7, at bit k (spec R249 states
no value). Client software. -/
opaque h24OfShortBuffer : Nat → List Byte → Bool

/-- `TIMEOUT`, the link timeout (spec R10, R274: open, and no rule reads it; log 17). -/
opaque timeout : Nat

/-- `DELAY`, the pacing between GPIO writes (spec R10, R274: open, and no rule reads it; log 17). -/
opaque delay : Nat

end Config

end Sys2Proof
end

