-- ==== Sys2Proof/Machine/Codec.lean ====
section
/-! DEFINITION. The frame codec (spec section 40): pure functions, "no state". -/

namespace Sys2Proof.Machine

/-- `le_N(v)`: N bytes of v, least significant first (spec R12, R54). -/
def le (n v : Nat) : List Byte := (List.range n).map fun k => BitVec.ofNat 8 (v >>> (8 * k))

/-- `from_le(bs)`: the number whose little-endian bytes are bs (spec R12, R54). -/
def fromLe : List Byte → Nat
  | [] => 0
  | b :: bs => b.toNat + 256 * fromLe bs

/-- Byte k of a list. The 0 past its end is never used as a value: every use reads an index the list has. -/
def byteAt (bs : List Byte) (k : Nat) : Byte := bs.getD k 0#8

/-- The four defined frame opcodes (spec R86). -/
abbrev opWriteRom : Byte := 0xF5#8
abbrev opReadRom : Byte := 0xF6#8
abbrev opWriteRam : Byte := 0xF7#8
abbrev opReadRam : Byte := 0xF8#8

/-- `op in {0xF5, 0xF6, 0xF7, 0xF8}` (spec R86). -/
def isFrameOp (op : Byte) : Bool := op == opWriteRom || op == opReadRom || op == opWriteRam || op == opReadRam

/-- `op in {0xF6, 0xF8}`: the payload is a requested length (spec R82). -/
def isReadOp (op : Byte) : Bool := op == opReadRom || op == opReadRam

/-- The longest payload a u16 LENGTH field admits (spec R81). -/
abbrev maxPayload : Nat := 65528

/-- The frame layout: LENGTH, OPCODE, ADDRESS, PAYLOAD, TRAILER (spec R80, R81). -/
def frameBytes (op : Byte) (addr : Nat) (payload : List Byte) : List Byte :=
  le 2 (1 + 4 + payload.length + 2) ++ [op] ++ le 4 addr ++ payload ++ [0x00#8, 0x00#8]

/-- Why `Encode` refuses its input: a caller's error (spec R110). -/
inductive EncodeRefusal where
  | badOpcode | badAddress | payloadTooLong | badReadPayload
  deriving DecidableEq, Repr

/-- `Encode(op, addr, payload)` (spec R110). -/
def encodeFrame (op : Byte) (addr : Nat) (payload : List Byte) : Except EncodeRefusal (List Byte) :=
  if isFrameOp op = false then .error .badOpcode
  else if 2 ^ 32 ≤ addr then .error .badAddress
  else if maxPayload < payload.length then .error .payloadTooLong
  else if isReadOp op = true ∧ payload.length ≠ 2 then .error .badReadPayload
  else .ok (frameBytes op addr payload)

/-- The parser's verdicts (spec R113). -/
inductive ParseReject where
  | tooShort | lengthMismatch | badOpcode | badTrailer | badReadPayload
  deriving DecidableEq, Repr

/-- PAYLOAD of a frame: `bs[7 : len(bs)-2]` (spec R113). -/
def framePayload (bs : List Byte) : List Byte := (bs.drop 7).take (bs.length - 9)

/-- `ParseFrame(bs)`, the inverse of `Encode` (spec R113). -/
def parseFrame (bs : List Byte) : Except ParseReject (Byte × Nat × List Byte) :=
  if bs.length < 9 then .error .tooShort
  else if fromLe (bs.take 2) ≠ bs.length - 2 then .error .lengthMismatch
  else if isFrameOp (byteAt bs 2) = false then .error .badOpcode
  else if byteAt bs (bs.length - 2) ≠ 0#8 ∨ byteAt bs (bs.length - 1) ≠ 0#8 then .error .badTrailer
  else if isReadOp (byteAt bs 2) = true ∧ (framePayload bs).length ≠ 2 then .error .badReadPayload
  else .ok (byteAt bs 2, fromLe ((bs.drop 3).take 4), framePayload bs)

/-- `DecodeResponse(raw, expected_len)`: strips the 2-byte header; `.error n` is PROTOCOL(n) (spec R112). -/
def decodeResponse (raw : List Byte) (expected : Nat) : Except Nat (List Byte) :=
  if raw.length ≠ expected + 2 then .error raw.length else .ok (raw.drop 2)

/-- `RespLen(F)`, the response length of a frame; none for an opcode `Encode` never writes (spec R116). -/
def respLen (f : List Byte) : Option Nat :=
  if byteAt f 2 = opWriteRom ∨ byteAt f 2 = opWriteRam then some 1
  else if byteAt f 2 = opReadRom ∨ byteAt f 2 = opReadRam then some (fromLe ((f.drop 7).take 2) + 2)
  else none

/-- The first frame of a byte stream and the rest: LENGTH first, then that many bytes (spec R85); none while the stream
does not hold a whole frame. -/
def splitFrame (bs : List Byte) : Option (List Byte × List Byte) :=
  if bs.length < 2 then none
  else if bs.length < 2 + fromLe (bs.take 2) then none
  else some (bs.take (2 + fromLe (bs.take 2)), bs.drop (2 + fromLe (bs.take 2)))

end Sys2Proof.Machine
end

