-- ==== Sys2Proof/Machine/Operands.lean ====
section
/-! DEFINITION. The operand forms: the fields of a request word (spec R90), the RTC command byte (spec R96-R99), the GPIO
register values (spec R100-R102), and the leaf checks of `WF` (spec R93). -/

namespace Sys2Proof.Machine

/-- OP, bits 31:28 of a request word (spec R90). -/
def opField (w : Word) : BitVec 4 := w.extractLsb' 28 4
/-- N, bits 27:24 (spec R90). -/
def nField (w : Word) : BitVec 4 := w.extractLsb' 24 4
/-- A, bits 23:16 (spec R90). -/
def aField (w : Word) : Byte := w.extractLsb' 16 8
/-- V, bits 15:0 (spec R90). -/
def vField (w : Word) : Half := w.extractLsb' 0 16

/-- The request word with the four fields (spec R90). -/
def requestWord (op n : BitVec 4) (a : Byte) (v : Half) : Word := op ++ n ++ a ++ v

/-- `v` holds a byte to send: `V[15:8] = 0` (spec R93). -/
def byteOnly (v : Half) : Bool := v.extractLsb' 8 8 == 0#8

/-- A GPIO byte address is even, `A[0] = 0` (spec R57, R93). -/
def evenAddr (a : Byte) : Bool := !a.getLsbD 0

/-- A GPIO_READN length: `1 <= V <= RBUF_BYTES` (spec R93, R147). -/
def readLenOk (v : Half) : Bool := decide (1 ≤ v.toNat ∧ v.toNat ≤ Config.rbufBytes)

/-- `DATALEN(c)`: the data-phase length of an RTC command byte; `none` where it is undefined, or not given (spec R99). -/
def dataLen (p : Params) (c : Byte) : Option Nat :=
  if c = 0x60#8 then some 0
  else if c = 0x62#8 ∨ c = 0x63#8 then some 1
  else if c = 0x64#8 ∨ c = 0x65#8 then some 7
  else if c = 0x66#8 ∨ c = 0x67#8 then p.nTime.map Fin.val
  else if c = 0x68#8 ∨ c = 0x69#8 then p.nAlarm.map Fin.val
  else none

/-- `A` is one of the nine commands with `DATALEN(A)` given and `N = DATALEN(A)` (spec R93, R96). -/
def txnOk (p : Params) (c : Byte) (n : BitVec 4) : Bool := dataLen p c == some n.toNat

/-- A command with bit 0 set is a read (spec R97, R187). -/
def isReadCommand (c : Byte) : Bool := c.getLsbD 0

/-- `DataWord(cs, sio, sck) = (cs << 2) | (sio << 1) | sck` (spec R100). -/
def dataWord (cs sio sck : Bool) : Half :=
  (BitVec.ofBool cs).setWidth 16 <<< 2 ||| (BitVec.ofBool sio).setWidth 16 <<< 1 ||| (BitVec.ofBool sck).setWidth 16

/-- The ROM word address of a GPIO byte address: the byte address halved (spec R53). -/
def gpioWordAddr (a : Byte) : Nat := (a >>> 1).toNat

end Sys2Proof.Machine
end

