-- ==== Sys2Proof/Syntax.lean ====
section
/-! DEFINITION. The instructions, one constructor per row of spec/opcode_table.json, and the encoded forms they come in. -/

namespace Sys2Proof

/-- The instructions of the block. The first sixteen are request words at the client port (spec R90, R91), the last four
frames given to the codec (spec R80, R86). -/
inductive Instr where
  /-- BB_SEND_CMD, `bb.cmd <byte>` (spec R161). -/
  | bbSendCmd (x : Byte)
  /-- BB_WRITE_BYTE, `bb.wr <byte>` (spec R163). -/
  | bbWriteByte (x : Byte)
  /-- BB_READ_BYTE, `bb.rd` (spec R166). -/
  | bbReadByte
  /-- GPIO_WRITE16, `gpio.wr16 <addr>, <value>` (spec R144). -/
  | gpioWrite16 (a : Byte) (v : Half)
  /-- GPIO_READ16, `gpio.rd16 <addr>` (spec R145). -/
  | gpioRead16 (a : Byte)
  /-- GPIO_READN, `gpio.rdn <addr>, <len>` (spec R147). -/
  | gpioReadN (a : Byte) (len : Half)
  /-- RTC_TXN, `rtc.txn <cmd>, <n>` (spec R180). -/
  | rtcTxn (c : Byte) (n : BitVec 4)
  /-- RTC_RESET, `rtc.txn 0x60, 0` (spec R190). -/
  | rtcReset
  /-- RTC_WRITE_STATUS, `rtc.txn 0x62, 1` (spec R191). -/
  | rtcWriteStatus
  /-- RTC_READ_STATUS, `rtc.txn 0x63, 1` (spec R192). -/
  | rtcReadStatus
  /-- RTC_WRITE_DATE, `rtc.txn 0x64, 7` (spec R193). -/
  | rtcWriteDate
  /-- RTC_READ_DATE, `rtc.txn 0x65, 7` (spec R194). -/
  | rtcReadDate
  /-- RTC_WRITE_TIME, `rtc.txn 0x66, N_TIME`, with the word's own N field (spec R195). -/
  | rtcWriteTime (n : BitVec 4)
  /-- RTC_READ_TIME, `rtc.txn 0x67, N_TIME` (spec R196). -/
  | rtcReadTime (n : BitVec 4)
  /-- RTC_WRITE_ALARM, `rtc.txn 0x68, N_ALARM` (spec R197). -/
  | rtcWriteAlarm (n : BitVec 4)
  /-- RTC_READ_ALARM, `rtc.txn 0x69, N_ALARM` (spec R198). -/
  | rtcReadAlarm (n : BitVec 4)
  /-- FR_WRITE_ROM, opcode 0xF5: a ROM word address and the bytes to write (spec R120). -/
  | frWriteRom (addr : Word) (payload : List Byte)
  /-- FR_READ_ROM, opcode 0xF6: a ROM word address and the number of bytes requested (spec R121). -/
  | frReadRom (addr : Word) (len : Half)
  /-- FR_WRITE_RAM, opcode 0xF7: a RAM byte address and the bytes to write (spec R122). -/
  | frWriteRam (addr : Word) (payload : List Byte)
  /-- FR_READ_RAM, opcode 0xF8: a RAM byte address and the number of bytes requested (spec R123). -/
  | frReadRam (addr : Word) (len : Half)
  deriving DecidableEq, Repr

/-- The two encoded forms of an instruction: a request word at the client port (spec R90) or a frame (spec R80). -/
inductive Code where
  | request (w : Word)
  | frame (bs : List Byte)
  deriving DecidableEq, Repr

end Sys2Proof
end

