-- ==== Sys2Proof/WellFormed.lean ====
section
/-! DEFINITION. Well-formedness of an instruction: `WF` (spec R93) for request words, `Encode`'s checks (spec R110) for
frames. The leaf checks stand in Machine/Operands.lean and Machine/Codec.lean. -/

namespace Sys2Proof

/-- `WF` (spec R93) and `Encode`'s checks (spec R110), with the parameters `DATALEN` reads. The fields a row fixes at zero are
no operands of the constructor, so only the remaining checks stand here. -/
def Instr.wf (p : Params) : Instr → Bool
  | .bbSendCmd _ => true
  | .bbWriteByte _ => true
  | .bbReadByte => true
  | .gpioWrite16 a _ => Machine.evenAddr a
  | .gpioRead16 a => Machine.evenAddr a
  | .gpioReadN a len => Machine.evenAddr a && Machine.readLenOk len
  | .rtcTxn c n => Machine.txnOk p c n
  | .rtcReset => true
  | .rtcWriteStatus => true
  | .rtcReadStatus => true
  | .rtcWriteDate => true
  | .rtcReadDate => true
  | .rtcWriteTime n => Machine.txnOk p 0x66#8 n
  | .rtcReadTime n => Machine.txnOk p 0x67#8 n
  | .rtcWriteAlarm n => Machine.txnOk p 0x68#8 n
  | .rtcReadAlarm n => Machine.txnOk p 0x69#8 n
  | .frWriteRom _ payload => decide (payload.length ≤ Machine.maxPayload)
  | .frReadRom _ _ => true
  | .frWriteRam _ payload => decide (payload.length ≤ Machine.maxPayload)
  | .frReadRam _ _ => true

/-- What the encoding itself admits, whatever the parameters: an even GPIO address (the row's bit 16 is 0) and a payload
that LENGTH can count. Weaker than `wf`: a word of the row that `WF` refuses is still this instruction. -/
def Instr.encodable : Instr → Bool
  | .bbSendCmd _ => true
  | .bbWriteByte _ => true
  | .bbReadByte => true
  | .gpioWrite16 a _ => Machine.evenAddr a
  | .gpioRead16 a => Machine.evenAddr a
  | .gpioReadN a _ => Machine.evenAddr a
  | .rtcTxn _ _ => true
  | .rtcReset => true
  | .rtcWriteStatus => true
  | .rtcReadStatus => true
  | .rtcWriteDate => true
  | .rtcReadDate => true
  | .rtcWriteTime _ => true
  | .rtcReadTime _ => true
  | .rtcWriteAlarm _ => true
  | .rtcReadAlarm _ => true
  | .frWriteRom _ payload => decide (payload.length ≤ Machine.maxPayload)
  | .frReadRom _ _ => true
  | .frWriteRam _ payload => decide (payload.length ≤ Machine.maxPayload)
  | .frReadRam _ _ => true

end Sys2Proof
end

