-- ==== Sys2Proof/Decode.lean ====
section
/-! DEFINITION. The decoder, total on any request word and any bytes, rejecting by name; the encoder after it. -/

namespace Sys2Proof

open Sys2Proof.Machine

/-- Why a code is no instruction. -/
inductive Reject where
  /-- OP = 0x0 or 0x8..0xF (spec R94). -/
  | reservedOp
  /-- A field the row fixes at zero is not zero (spec R93). -/
  | nonzeroField
  /-- A GPIO byte address with `A[0] = 1` (spec R57). -/
  | oddAddress
  /-- The frame parser's verdict (spec R113). -/
  | frame (why : ParseReject)
  deriving DecidableEq, Repr

/-- The row of an OP = 0x7 word: the most specific one the word's cmd and n fields match (spec R188, R190-R198). -/
def decodeTxn (c : Byte) (n : BitVec 4) : Instr :=
  if c = 0x60#8 ∧ n = 0#4 then .rtcReset
  else if c = 0x62#8 ∧ n = 1#4 then .rtcWriteStatus
  else if c = 0x63#8 ∧ n = 1#4 then .rtcReadStatus
  else if c = 0x64#8 ∧ n = 7#4 then .rtcWriteDate
  else if c = 0x65#8 ∧ n = 7#4 then .rtcReadDate
  else if c = 0x66#8 then .rtcWriteTime n
  else if c = 0x67#8 then .rtcReadTime n
  else if c = 0x68#8 then .rtcWriteAlarm n
  else if c = 0x69#8 then .rtcReadAlarm n
  else .rtcTxn c n

/-- A GPIO word: its row fixes N = 0 and bit 16 = 0 (spec R93). -/
def decodeGpio (w : Word) (i : Instr) : Except Reject Instr :=
  if nField w ≠ 0#4 then .error .nonzeroField
  else if evenAddr (aField w) = false then .error .oddAddress
  else .ok i

/-- A request word, by the OP map (spec R91) and the fixed bits of each row (spec R93). -/
def decodeRequest (w : Word) : Except Reject Instr :=
  if opField w = 0x1#4 then
    if nField w ≠ 0#4 ∨ aField w ≠ 0#8 ∨ byteOnly (vField w) = false then .error .nonzeroField
    else .ok (.bbSendCmd (w.extractLsb' 0 8))
  else if opField w = 0x2#4 then
    if nField w ≠ 0#4 ∨ aField w ≠ 0#8 ∨ byteOnly (vField w) = false then .error .nonzeroField
    else .ok (.bbWriteByte (w.extractLsb' 0 8))
  else if opField w = 0x3#4 then
    if nField w ≠ 0#4 ∨ aField w ≠ 0#8 ∨ vField w ≠ 0#16 then .error .nonzeroField
    else .ok .bbReadByte
  else if opField w = 0x4#4 then decodeGpio w (.gpioWrite16 (aField w) (vField w))
  else if opField w = 0x5#4 then
    if vField w ≠ 0#16 then .error .nonzeroField else decodeGpio w (.gpioRead16 (aField w))
  else if opField w = 0x6#4 then decodeGpio w (.gpioReadN (aField w) (vField w))
  else if opField w = 0x7#4 then
    if vField w ≠ 0#16 then .error .nonzeroField else .ok (decodeTxn (aField w) (nField w))
  else .error .reservedOp

/-- A parsed frame as its instruction (spec R86, R120-R123); a read's payload is its requested length (spec R82). -/
def frameInstr (op : Byte) (addr : Nat) (payload : List Byte) : Instr :=
  if op = opWriteRom then .frWriteRom (BitVec.ofNat 32 addr) payload
  else if op = opReadRom then .frReadRom (BitVec.ofNat 32 addr) (BitVec.ofNat 16 (fromLe payload))
  else if op = opWriteRam then .frWriteRam (BitVec.ofNat 32 addr) payload
  else .frReadRam (BitVec.ofNat 32 addr) (BitVec.ofNat 16 (fromLe payload))

/-- A frame, by the frame parser (spec R113). -/
def decodeFrame (bs : List Byte) : Except Reject Instr :=
  match parseFrame bs with
  | .error why => .error (.frame why)
  | .ok (op, addr, payload) => .ok (frameInstr op addr payload)

/-- The decoder. -/
def decode : Code → Except Reject Instr
  | .request w => decodeRequest w
  | .frame bs => decodeFrame bs

/-- The encoder, from the encoding of each row (spec R90, R80). -/
def encode : Instr → Code
  | .bbSendCmd x => .request (requestWord 0x1#4 0#4 0#8 (x.setWidth 16))
  | .bbWriteByte x => .request (requestWord 0x2#4 0#4 0#8 (x.setWidth 16))
  | .bbReadByte => .request (requestWord 0x3#4 0#4 0#8 0#16)
  | .gpioWrite16 a v => .request (requestWord 0x4#4 0#4 a v)
  | .gpioRead16 a => .request (requestWord 0x5#4 0#4 a 0#16)
  | .gpioReadN a len => .request (requestWord 0x6#4 0#4 a len)
  | .rtcTxn c n => .request (requestWord 0x7#4 n c 0#16)
  | .rtcReset => .request (requestWord 0x7#4 0#4 0x60#8 0#16)
  | .rtcWriteStatus => .request (requestWord 0x7#4 1#4 0x62#8 0#16)
  | .rtcReadStatus => .request (requestWord 0x7#4 1#4 0x63#8 0#16)
  | .rtcWriteDate => .request (requestWord 0x7#4 7#4 0x64#8 0#16)
  | .rtcReadDate => .request (requestWord 0x7#4 7#4 0x65#8 0#16)
  | .rtcWriteTime n => .request (requestWord 0x7#4 n 0x66#8 0#16)
  | .rtcReadTime n => .request (requestWord 0x7#4 n 0x67#8 0#16)
  | .rtcWriteAlarm n => .request (requestWord 0x7#4 n 0x68#8 0#16)
  | .rtcReadAlarm n => .request (requestWord 0x7#4 n 0x69#8 0#16)
  | .frWriteRom addr payload => .frame (frameBytes opWriteRom addr.toNat payload)
  | .frReadRom addr len => .frame (frameBytes opReadRom addr.toNat (le 2 len.toNat))
  | .frWriteRam addr payload => .frame (frameBytes opWriteRam addr.toNat payload)
  | .frReadRam addr len => .frame (frameBytes opReadRam addr.toNat (le 2 len.toNat))

/-- The instruction that an instruction's own encoding decodes to: the same one, but that a generic transaction whose cmd
and n are those of a row of its own is that row's instruction (log 10). -/
def Instr.canonical : Instr → Instr
  | .rtcTxn c n => decodeTxn c n
  | i => i

/-- The words of a row of spec/opcode_table.json: the row's mask and match, for the rows that are request words. -/
structure TableRow where
  mask : Word
  value : Word
  deriving DecidableEq, Repr

/-- The row of each request instruction, as spec/opcode_table.json gives it; none for the frame opcodes. -/
def Instr.row : Instr → Option TableRow
  | .bbSendCmd _ => some ⟨0xFFFFFF00#32, 0x10000000#32⟩
  | .bbWriteByte _ => some ⟨0xFFFFFF00#32, 0x20000000#32⟩
  | .bbReadByte => some ⟨0xFFFFFFFF#32, 0x30000000#32⟩
  | .gpioWrite16 _ _ => some ⟨0xFF010000#32, 0x40000000#32⟩
  | .gpioRead16 _ => some ⟨0xFF01FFFF#32, 0x50000000#32⟩
  | .gpioReadN _ _ => some ⟨0xFF010000#32, 0x60000000#32⟩
  | .rtcTxn _ _ => some ⟨0xF000FFFF#32, 0x70000000#32⟩
  | .rtcReset => some ⟨0xFFFFFFFF#32, 0x70600000#32⟩
  | .rtcWriteStatus => some ⟨0xFFFFFFFF#32, 0x71620000#32⟩
  | .rtcReadStatus => some ⟨0xFFFFFFFF#32, 0x71630000#32⟩
  | .rtcWriteDate => some ⟨0xFFFFFFFF#32, 0x77640000#32⟩
  | .rtcReadDate => some ⟨0xFFFFFFFF#32, 0x77650000#32⟩
  | .rtcWriteTime _ => some ⟨0xF0FFFFFF#32, 0x70660000#32⟩
  | .rtcReadTime _ => some ⟨0xF0FFFFFF#32, 0x70670000#32⟩
  | .rtcWriteAlarm _ => some ⟨0xF0FFFFFF#32, 0x70680000#32⟩
  | .rtcReadAlarm _ => some ⟨0xF0FFFFFF#32, 0x70690000#32⟩
  | .frWriteRom _ _ => none
  | .frReadRom _ _ => none
  | .frWriteRam _ _ => none
  | .frReadRam _ _ => none

/-- The opcode byte of a frame instruction's row (spec/opcode_table.json, "opcode byte at offset 2"). -/
def Instr.frameOpcode : Instr → Option Byte
  | .frWriteRom _ _ => some 0xF5#8
  | .frReadRom _ _ => some 0xF6#8
  | .frWriteRam _ _ => some 0xF7#8
  | .frReadRam _ _ => some 0xF8#8
  | _ => none

/-- The code that a row of spec/opcode_table.json stands for: a row of 32 bits is a request word; a row of 8 bits is the
opcode byte of a frame, whose operands (address, requested length, written data) are zeros or empty (log 8). -/
def tableCode (nbits w : Nat) : Code :=
  if nbits ≤ 8 then
    .frame (frameBytes (BitVec.ofNat 8 w) 0 (if isReadOp (BitVec.ofNat 8 w) then le 2 0 else []))
  else .request (BitVec.ofNat 32 w)

/-- The instruction the decoder reads from a word of the opcode table. -/
def decodeTableWord (nbits w : Nat) : Option Instr :=
  match decode (tableCode nbits w) with
  | .ok i => some i
  | .error _ => none

end Sys2Proof
end

