-- ==== Sys2Proof/Machine/State.lean ====
section
/-! DEFINITION. The state of the block, as plain data: the engine's registers (spec R20), the target's shadow (spec R36), the
observation record (spec R39), and the inputs of the outside world (client port, link, reset). -/

namespace Sys2Proof.Machine

/-- PHASE: IDLE when no request is executing, BUSY from acceptance to completion (spec R21). -/
inductive Phase where
  | idle | busy
  deriving DecidableEq, Repr

/-- The error codes (spec R260). -/
inductive ErrCode where
  | ok | linkTimeout | linkClosed | linkShort | protocol | refused | data
  deriving DecidableEq, Repr

/-- The causes of a failed exchange (spec R62). -/
inductive LinkFail where
  | timeout | closed | short
  deriving DecidableEq, Repr

/-- The outcome of an exchange (spec R62). -/
inductive LinkOutcome where
  | ok (rs : List Byte)
  | fail (c : LinkFail)
  deriving DecidableEq, Repr

/-- One entry of the observation record: the frame bytes sent, the receive count, the outcome (spec R39). -/
structure ExchangeRecord where
  frame : List Byte
  count : Nat
  outcome : LinkOutcome
  deriving DecidableEq, Repr

/-- The shadow of the target's GPIO registers; `none` is the spec's "unknown" (spec R36, R37). -/
structure Shadow where
  data : Option Half
  ctrl : Option Half
  re : Option Half
  deriving DecidableEq, Repr

/-- A client operation presented at the port (spec R31): a request word to submit or a frame for the transport, or a write of
one byte of BUF. -/
inductive PortOp where
  | present (c : Code)
  | writeBuf (j : Fin 7) (b : Byte)
  deriving DecidableEq, Repr

/-- What the last direct call of the codec and transport gave its caller (spec R110, R112, R117); the model's own field. -/
inductive CodecReturn where
  /-- No direct call has been made. -/
  | nothing
  /-- The call returned these bytes (none for a write, whose result is discarded, spec R120). -/
  | bytes (bs : List Byte)
  /-- The call raised this error. -/
  | error (e : ErrCode)
  deriving DecidableEq, Repr

/-- The state. -/
structure State where
  /-- PHASE (spec R21). -/
  phase : Phase
  /-- REQ (spec R22). -/
  req : Word
  /-- SEQ_IDX, the index of the next access (spec R24). -/
  seqIdx : BitVec 9
  /-- ERR, the first error of the current or last request (spec R26). -/
  err : BitVec 4
  /-- DONE (spec R20, R25). -/
  done : Bool
  /-- RESULT (spec R27). -/
  result : Half
  /-- BUF[0..6] (spec R28). -/
  buf : Vector Byte 7
  /-- RBUF[0..RBUF_BYTES-1] (spec R29). -/
  rbuf : Vector Byte Config.rbufBytes
  /-- T_DATA, T_CTRL, T_RE (spec R36). -/
  shadow : Shadow
  /-- The observation record, oldest first (spec R39). -/
  history : List ExchangeRecord
  /-- Bytes pending on the link's receive stream (spec R37, R299). -/
  rx : List Byte
  /-- The link's next answers, given from outside; when none is left the oracle draws (log 4). -/
  answers : List LinkAnswer
  /-- The model's own counter: the next argument of Config's opaque free values (log 4). -/
  draws : Nat
  /-- Client operations presented and not yet taken, oldest first (spec R31). -/
  port : List PortOp
  /-- A reset is asked for from outside (spec R290). -/
  resetReq : Bool
  /-- What the last direct codec call returned (log 8). -/
  codecRet : CodecReturn
  /-- N_TIME and N_ALARM, which no step changes (spec R10, log 6). -/
  params : Params
  deriving DecidableEq, Repr

/-- Faults. No run from reset raises one: both answer only in states that the engine's invariant rules out (log 11; safe). -/
inductive Fault where
  /-- Raised by a request's engine step: BUSY, but the request has no access at SEQ_IDX (spec R25 excludes it). Safe. -/
  | noAccess
  /-- Raised by the step: BUSY, but REQ is no request word (spec R92 excludes it). Safe. -/
  | busyWithoutRequest
  deriving DecidableEq, Repr

/-- Refusals of the model. The engine's own REFUSED (spec R265) is an architectural result, not one of these. -/
inductive Refusal where
  /-- Raised by exec for an instruction whose meaning is not written; no arm does. Safe. -/
  | notModelled (mnemonic : String)
  deriving DecidableEq, Repr

/-- The machine right after reset (spec R38, R290). BUF and RBUF, which the spec leaves unspecified, hold 0 (DESIGN CHOICE,
unsafe, log 2); the shadow is unknown (spec R291); nothing has been presented, answered or recorded. -/
def State.reset : State where
  phase := .idle
  req := 0x00000000#32
  seqIdx := 0#9
  err := 0#4
  done := false
  result := 0x0000#16
  buf := Vector.replicate 7 0#8
  rbuf := Vector.replicate Config.rbufBytes 0#8
  shadow := { data := none, ctrl := none, re := none }
  history := []
  rx := []
  answers := []
  draws := 0
  port := []
  resetReq := false
  codecRet := .nothing
  params := { nTime := none, nAlarm := none }

end Sys2Proof.Machine
end

