-- ==== Sys2Proof/Machine/Flags.lean ====
section
/-! DEFINITION. The status computations: error codes, the first-error rule, the STATUS view. -/

namespace Sys2Proof.Machine

/-- The number of an error code (spec R260, D19). -/
def errNum : ErrCode → BitVec 4
  | .ok => 0#4
  | .linkTimeout => 1#4
  | .linkClosed => 2#4
  | .linkShort => 3#4
  | .protocol => 4#4
  | .refused => 5#4
  | .data => 6#4

/-- The error a failed exchange raises (spec R117, R262). -/
def failErr : LinkFail → ErrCode
  | .timeout => .linkTimeout
  | .closed => .linkClosed
  | .short => .linkShort

/-- ERR after `raise e`: the first error of the request is kept (spec R261). -/
def raiseErr (err : BitVec 4) (e : ErrCode) : BitVec 4 := if err = 0#4 then errNum e else err

/-- STATUS: bit 0 BUSY, bit 1 DONE, bits 3:2 zero, bits 7:4 ERR (spec R30). -/
def statusByte (phase : Phase) (done : Bool) (err : BitVec 4) : Byte :=
  err ++ 0#2 ++ BitVec.ofBool done ++ BitVec.ofBool (phase == .busy)

end Sys2Proof.Machine
end

