-- ==== Sys2Proof/Machine/Sequences.lean ====
section
/-! DEFINITION. The access descriptors (spec R140-R142) and the sequences of the bit-bang engine and the session sequencer
(spec sections 42 and 43). -/

namespace Sys2Proof.Machine

/-- Where a sampled bit goes: RESULT[7:0] or BUF[j] (spec R164). -/
inductive SampleDst where
  | result
  | buf (j : Fin 7)
  deriving DecidableEq, Repr

/-- The action of a 16-bit read access (spec R141). -/
inductive ReadAction where
  /-- SET_RESULT (spec R146). -/
  | setResult
  /-- SAMPLE(dst, i) (spec R165). -/
  | sample (dst : SampleDst) (i : Fin 8)
  deriving DecidableEq, Repr

/-- An access: one GPIO register write or read, carried by one exchange (spec R14). -/
inductive Access where
  /-- GpioWrite(a, v) (spec R140). -/
  | gpioWrite (a : Byte) (v : Half)
  /-- GpioRead(a, act) (spec R141). -/
  | gpioRead (a : Byte) (act : ReadAction)
  /-- GpioReadN(a, L) (spec R142). -/
  | gpioReadN (a : Byte) (len : Half)
  deriving DecidableEq, Repr

/-- The frame of an access (spec R140-R142). -/
def accessFrame : Access → List Byte
  | .gpioWrite a v => frameBytes opWriteRom (gpioWordAddr a) (le 2 v.toNat)
  | .gpioRead a _ => frameBytes opReadRom (gpioWordAddr a) (le 2 2)
  | .gpioReadN a len => frameBytes opReadRom (gpioWordAddr a) (le 2 len.toNat)

/-- The response length of an access (spec R140-R142). -/
def accessCount : Access → Nat
  | .gpioWrite _ _ => 1
  | .gpioRead _ _ => 4
  | .gpioReadN _ len => len.toNat + 2

/-- `CmdBit(b)`: three clock-low writes and one clock-high write (spec R160). -/
def cmdBit (b : Bool) : List Access :=
  List.replicate 3 (.gpioWrite Config.gpioData (dataWord true b false)) ++
    [.gpioWrite Config.gpioData (dataWord true b true)]

/-- `SendCmdSeq(x)`: most significant bit first (spec R161). -/
def sendCmdSeq (x : Byte) : List Access := [7, 6, 5, 4, 3, 2, 1, 0].flatMap fun i => cmdBit (x.getLsbD i)

/-- `WriteByteSeq(x)`: least significant bit first (spec R162). -/
def writeByteSeq (x : Byte) : List Access := [0, 1, 2, 3, 4, 5, 6, 7].flatMap fun i => cmdBit (x.getLsbD i)

/-- `ReadBit(dst, i)`: five clock-low writes, one clock-high write, one sample (spec R164). -/
def readBit (dst : SampleDst) (i : Fin 8) : List Access :=
  List.replicate 5 (.gpioWrite Config.gpioData (dataWord true Config.readSioDrive false)) ++
    [.gpioWrite Config.gpioData (dataWord true Config.readSioDrive true),
     .gpioRead Config.gpioData (.sample dst i)]

/-- `ReadByteSeq(dst)` (spec R164). -/
def readByteSeq (dst : SampleDst) : List Access := [0, 1, 2, 3, 4, 5, 6, 7].flatMap fun i => readBit dst i

/-- `OpenSeq` (spec R182). -/
def openSeq : List Access :=
  [.gpioWrite Config.gpioRe 0x0001#16, .gpioWrite Config.gpioData 0x0001#16,
   .gpioWrite Config.gpioData 0x0005#16, .gpioWrite Config.gpioCtrl 0x0007#16]

/-- `CloseSeq`: the two Close pulses, then Read-Enable = 0 (spec R186). -/
def closeSeq : List Access :=
  Config.closeSeq.map (fun v => .gpioWrite Config.gpioData v) ++ [.gpioWrite Config.gpioRe 0x0000#16]

/-- The buffer indices 0..n-1, ascending; a data phase has n ≤ 7 (spec R99). -/
def bufSlots (n : Nat) : List (Fin 7) := [(0 : Fin 7), 1, 2, 3, 4, 5, 6].take n

/-- `DataSeq(c, n, BUF)` (spec R181, R184, R185). -/
def dataSeq (c : Byte) (n : Nat) (buf : Vector Byte 7) : List Access :=
  if c = 0x60#8 then []
  else if isReadCommand c then
    .gpioWrite Config.gpioCtrl 0x0005#16 :: (bufSlots n).flatMap fun j => readByteSeq (.buf j)
  else (bufSlots n).flatMap fun j => writeByteSeq buf[j]

/-- Open, Command and Data phases: everything before CLOSE_IDX (spec R181, R186). -/
def txnBody (c : Byte) (n : Nat) (buf : Vector Byte 7) : List Access := openSeq ++ sendCmdSeq c ++ dataSeq c n buf

/-- `TxnSeq(c, n, BUF)` (spec R181). -/
def txnSeq (c : Byte) (n : Nat) (buf : Vector Byte 7) : List Access := txnBody c n buf ++ closeSeq

end Sys2Proof.Machine
end

