-- ==== Sys2Proof/Machine/Ops.lean ====
section
/-! DEFINITION. The named operations: the link exchange, the actions of an access, acceptance and refusal of a request, the one
engine step, error entry and completion, the client port, reset. -/

namespace Sys2Proof.Machine

/-! ### The link (spec R62, R299) -/

/-- The link's answer to the next frame: given from outside, or drawn (spec R62; log 4). -/
def nextAnswer (s : State) : LinkAnswer :=
  match s.answers with
  | a :: _ => a
  | [] => Config.linkDraw s.draws

/-- The draw counter after an answer: a draw uses it up, a given answer does not. -/
def drawsAfterAnswer (s : State) : Nat :=
  match s.answers with
  | _ :: _ => s.draws
  | [] => s.draws + 1

/-- The outcome of receiving r bytes when `avail` is what arrives before the delivery ends (spec R62): the first r bytes if
there are that many; else the timeout, or the closing of the stream with no byte (CLOSED) or with some (SHORT). -/
def linkOutcome (r : Nat) (avail : List Byte) (ending : LinkEnd) : LinkOutcome :=
  if r ≤ avail.length then .ok (avail.take r)
  else match ending with
    | .timeout => .fail .timeout
    | .closed => if avail.length = 0 then .fail .closed else .fail .short

/-- What the engine can receive in its next exchange: bytes already pending, then the answer's (spec R299; log 5). -/
def available (s : State) : List Byte := s.rx ++ (nextAnswer s).bytes

/-- The outcome of `Exchange(F, r)`; it does not depend on F, since the link is an oracle (spec R62). -/
def exchangeOutcome (r : Nat) (s : State) : LinkOutcome := linkOutcome r (available s) (nextAnswer s).ending

/-- The state after `Exchange(F, r)`: the answer used up, surplus bytes left pending (spec R299), one entry in the
observation record (spec R39). -/
def afterExchange (f : List Byte) (r : Nat) (s : State) : State :=
  { s with
    rx := (available s).drop r
    answers := s.answers.tail
    draws := drawsAfterAnswer s
    history := s.history ++ [{ frame := f, count := r, outcome := exchangeOutcome r s }] }

/-! ### The target's shadow (spec R36) -/

/-- The shadow of the GPIO register at ROM word g after a ROM-space write of `payload` from word w. A GPIO write exchange of the
register is a 2-byte write to g itself: it sets the shadow when it completes and leaves it unknown when it fails; "nothing else
changes a shadow" (spec R36, R120; log 12). -/
def shadowWord (g w : Nat) (payload : List Byte) (ok : Bool) (old : Option Half) : Option Half :=
  if w = g ∧ payload.length = 2 then
    if ok then some (BitVec.ofNat 16 (fromLe payload)) else none
  else old

/-- The shadow after a ROM-space write (spec R36, R120). -/
def shadowRomWrite (w : Nat) (payload : List Byte) (ok : Bool) (sh : Shadow) : Shadow where
  data := shadowWord (gpioWordAddr Config.gpioData) w payload ok sh.data
  ctrl := shadowWord (gpioWordAddr Config.gpioCtrl) w payload ok sh.ctrl
  re := shadowWord (gpioWordAddr Config.gpioRe) w payload ok sh.re

/-- The exchange returned `Ok`. -/
def LinkOutcome.isOk : LinkOutcome → Bool
  | .ok _ => true
  | .fail _ => false

/-! ### The actions of an access (spec R140-R142, R165) -/

/-- The 16-bit value of a read response: `rs[2] | (rs[3] << 8)` (spec R141, R146). -/
def respValue (rs : List Byte) : Half := (byteAt rs 2).setWidth 16 ||| (byteAt rs 3).setWidth 16 <<< 8

/-- `dst <- (dst & ~(1 << i)) | (s << i)` (spec R165). -/
def putBit {n : Nat} (dst : BitVec n) (i : Nat) (b : Bool) : BitVec n :=
  dst &&& ~~~(1#n <<< i) ||| (BitVec.ofBool b).setWidth n <<< i

/-- The sampled bit: bit 1 of the value, the SIO line (spec R165). -/
def sampledBit (rs : List Byte) : Bool := (respValue rs).getLsbD 1

/-- The action of a 16-bit read on its response (spec R141, R146, R165). -/
def readAction (act : ReadAction) (rs : List Byte) (s : State) : State :=
  match act with
  | .setResult => { s with result := respValue rs }
  | .sample .result i => { s with result := putBit s.result i.val (sampledBit rs) }
  | .sample (.buf j) i => { s with buf := s.buf.set j (putBit s.buf[j] i.val (sampledBit rs)) }

/-- RBUF after a raw read of len bytes (spec R142, R148). -/
def rbufAfter (len : Nat) (rs : List Byte) (rbuf : Vector Byte Config.rbufBytes) : Vector Byte Config.rbufBytes :=
  Vector.ofFn fun k => if k.val < len then byteAt rs (2 + k.val) else rbuf[k]

/-- What an access does to the state, given its exchange's outcome: a write's shadow (spec R36); on `Ok`, the action (spec
R143). A failed read does nothing here. -/
def accessEffect (acc : Access) (out : LinkOutcome) (s : State) : State :=
  match acc, out with
  | .gpioWrite a v, out => { s with shadow := shadowRomWrite (gpioWordAddr a) (le 2 v.toNat) out.isOk s.shadow }
  | .gpioRead _ act, .ok rs => readAction act rs s
  | .gpioReadN _ len, .ok rs => { s with rbuf := rbufAfter len.toNat rs s.rbuf }
  | .gpioRead _ _, .fail _ => s
  | .gpioReadN _ _, .fail _ => s

/-! ### A request and its submission (spec R92, R265) -/

/-- What a request instruction denotes: its word, `WF`, how many bytes of BUF its acceptance clears, `Seq`, and for a
transaction CLOSE_IDX (spec R23, R24, R92). -/
structure Plan where
  word : Word
  ok : Bool
  clears : Nat
  seq : List Access
  close : Option Nat
  deriving DecidableEq, Repr

/-- BUF with its first n bytes set to 0 (spec R92). -/
def clearBuf (n : Nat) (buf : Vector Byte 7) : Vector Byte 7 :=
  Vector.ofFn fun k => if k.val < n then 0#8 else buf[k]

/-- Acceptance (spec R92). -/
def accept (p : Plan) (s : State) : State :=
  { s with
    req := p.word, err := errNum .ok, done := false, result := 0x0000#16, seqIdx := 0#9
    buf := clearBuf p.clears s.buf
    phase := .busy }

/-- Refusal of a request word: REQ, ERR, DONE and nothing else (spec R92, R265). -/
def refuseWord (w : Word) (s : State) : State := { s with req := w, err := errNum .refused, done := true }

/-- A submit presented at IDLE (spec R92). -/
def submit (p : Plan) (s : State) : State := if p.ok then accept p s else refuseWord p.word s

/-! ### Error entry and completion (spec R25, R261-R268): the exceptions of this machine -/

/-- Completion: the request ends, and the client reads STATUS (spec R25, R272). -/
def complete (s : State) : State := { s with phase := .idle, done := true }

/-- `raise e` (spec R261). -/
def raiseError (e : ErrCode) (s : State) : State := { s with err := raiseErr s.err e }

/-- Error entry, what happens after a failed exchange: the error is raised; a transaction before Close jumps to its first
Close access and stays BUSY (spec R266); in Close (R267) and in every other request (R268) the request ends at once. -/
def takeError (p : Plan) (c : LinkFail) (s : State) : State :=
  match p.close with
  | some ci =>
    if s.seqIdx.toNat < ci then { raiseError (failErr c) s with seqIdx := BitVec.ofNat 9 ci }
    else complete (raiseError (failErr c) s)
  | none => complete (raiseError (failErr c) s)

/-- The index after a completed exchange, and completion at SEQ_LEN (spec R24, R25, R143). -/
def advance (p : Plan) (s : State) : State :=
  if s.seqIdx.toNat + 1 = p.seq.length then complete { s with seqIdx := s.seqIdx + 1#9 }
  else { s with seqIdx := s.seqIdx + 1#9 }

/-- The one engine step (spec R143), at the access `acc` = SEQ[SEQ_IDX]. -/
def engineStep (p : Plan) (acc : Access) (s : State) : State :=
  let out := exchangeOutcome (accessCount acc) s
  let s' := accessEffect acc out (afterExchange (accessFrame acc) (accessCount acc) s)
  match out with
  | .ok _ => advance p s'
  | .fail c => takeError p c s'

/-- A request instruction: submitted at IDLE (spec R92), one engine step while BUSY (spec R143; log 1). -/
def request (p : Plan) (s : State) : Host.Outcome State Fault Refusal :=
  match s.phase with
  | .idle => .next (submit p s)
  | .busy =>
    if p.ok then
      match p.seq[s.seqIdx.toNat]? with
      | some acc => .next (engineStep p acc s)
      | none => .fault .noAccess
    else .fault .noAccess

/-! ### The transport, used directly (spec R117) -/

/-- `RespLen(F)` for a frame `Encode` builds (spec R116). -/
def respCount (f : List Byte) : Nat := (respLen f).getD 0

/-- `Transact(F)`'s outcome (spec R117). -/
def transactOutcome (f : List Byte) (s : State) : LinkOutcome := exchangeOutcome (respCount f) s

/-- The state after `Transact(F)` (spec R117). -/
def afterTransact (f : List Byte) (s : State) : State := afterExchange f (respCount f) s

/-- What a direct call returns to its caller (log 8). -/
def giveBack (r : CodecReturn) (s : State) : State := { s with codecRet := r }

/-- A write's return: the result is discarded, an error is raised (spec R117, R120). -/
def writeReturn : LinkOutcome → CodecReturn
  | .ok _ => .bytes []
  | .fail c => .error (failErr c)

/-- A read's return: the decoded response (spec R121), with PROTOCOL where `DecodeResponse` raises it (spec R112). -/
def readReturn (len : Nat) : LinkOutcome → CodecReturn
  | .ok rs =>
    match decodeResponse rs len with
    | .ok data => .bytes data
    | .error _ => .error .protocol
  | .fail c => .error (failErr c)

/-- `Transact(Encode(op, addr, payload))` of a write frame (spec R120, R122); input that `Encode` refuses sends nothing (spec
R110). -/
def frameWrite (op : Byte) (addr : Word) (payload : List Byte) (s : State) : State :=
  match encodeFrame op addr.toNat payload with
  | .error _ => giveBack (.error .refused) s
  | .ok f => giveBack (writeReturn (transactOutcome f s)) (afterTransact f s)

/-- `DecodeResponse(Transact(Encode(op, addr, le_2(L))), L)` (spec R121, R123). -/
def frameRead (op : Byte) (addr : Word) (len : Half) (s : State) : State :=
  match encodeFrame op addr.toNat (le 2 len.toNat) with
  | .error _ => giveBack (.error .refused) s
  | .ok f => giveBack (readReturn len.toNat (transactOutcome f s)) (afterTransact f s)

/-- The target effect of a ROM-space write on the shadow (spec R120, R36). A payload that `Encode` refuses is longer than 2
bytes, so it changes no shadow. -/
def noteRomWrite (addr : Word) (payload : List Byte) (ok : Bool) (s : State) : State :=
  { s with shadow := shadowRomWrite addr.toNat payload ok s.shadow }

/-! ### The client port and reset (spec R31, R290) -/

/-- `write_buf(j, b)` (spec R31). -/
def writeBuf (j : Fin 7) (b : Byte) (s : State) : State := { s with buf := s.buf.set j b }

/-- The client's read of STATUS (spec R30, R31). -/
def readStatus (s : State) : Byte := statusByte s.phase s.done s.err
/-- The client's read of RESULT (spec R31). -/
def readResult (s : State) : Half := s.result
/-- The client's read of BUF[j] (spec R31). -/
def readBuf (j : Fin 7) (s : State) : Byte := s.buf[j]
/-- The client's read of RBUF[k] (spec R31). -/
def readRbuf (k : Fin Config.rbufBytes) (s : State) : Byte := s.rbuf[k]

/-- Reset of the engine (spec R290): the registers of R38 at their reset values, BUF and RBUF unspecified (free values, log
3), the target unknown (spec R291). No exchange is made, and what is outside the engine stays (log 13), but for the client
software's CACHE, which `clientStep` empties (spec R38, R248). -/
def engineReset (s : State) : State :=
  { s with
    phase := .idle, req := 0x00000000#32, seqIdx := 0#9, err := errNum .ok, done := false, result := 0x0000#16
    buf := Vector.ofFn fun k => Config.unspecifiedByte s.draws k.val
    rbuf := Vector.ofFn fun k => Config.unspecifiedByte s.draws (7 + k.val)
    shadow := { data := none, ctrl := none, re := none }
    draws := s.draws + 1
    resetReq := false }

/-- What the engine executes next: the request it is BUSY with, else the code that the client presented first, taken from the
port; none when a reset is asked for or there is nothing to execute (spec R21, R31, R290). -/
def fetch (s : State) : Option (Code × State) :=
  if s.resetReq then none
  else match s.phase with
    | .busy => some (.request s.req, s)
    | .idle =>
      match s.port with
      | .present c :: rest => some (c, { s with port := rest })
      | .writeBuf _ _ :: _ => none
      | [] => none

/-- A step that executes nothing: a reset (spec R290), a `write_buf` at IDLE (spec R31), or waiting (spec R290; log 7). -/
def idleEvent (s : State) : State :=
  if s.resetReq then engineReset s
  else match s.port with
    | .writeBuf j b :: rest => writeBuf j b { s with port := rest }
    | .present _ :: _ => s
    | [] => s

/-- A code that is no instruction: a request word that fails `WF` is refused (spec R92, R265), a frame that `Encode` never
builds is the caller's error (spec R110, R124; log 9). While BUSY, REQ is always a request (log 11). -/
def turnAway (c : Code) (s : State) : Host.Outcome State Fault Refusal :=
  match s.phase with
  | .busy => .fault .busyWithoutRequest
  | .idle =>
    match c with
    | .request w => .next (refuseWord w s)
    | .frame _ => .next (giveBack (.error .refused) s)

end Sys2Proof.Machine
end

