-- ==== Sys2Proof/Machine/BitBang.lean ====
section
/-! DEFINITION. The bit-bang primitives (spec section 42). -/

namespace Sys2Proof.Machine

/-- BB_SEND_CMD: 32 writes, most significant bit first (spec R161). -/
def planBbSendCmd (x : Byte) : Plan where
  word := requestWord 0x1#4 0#4 0#8 (x.setWidth 16)
  ok := true
  clears := 0
  seq := sendCmdSeq x
  close := none

/-- BB_WRITE_BYTE: 32 writes, least significant bit first (spec R163). -/
def planBbWriteByte (x : Byte) : Plan where
  word := requestWord 0x2#4 0#4 0#8 (x.setWidth 16)
  ok := true
  clears := 0
  seq := writeByteSeq x
  close := none

/-- BB_READ_BYTE: 48 writes and 8 reads into RESULT[7:0] (spec R166). -/
def planBbReadByte : Plan where
  word := requestWord 0x3#4 0#4 0#8 0#16
  ok := true
  clears := 0
  seq := readByteSeq .result
  close := none

/-- The meaning of BB_SEND_CMD (spec R161). -/
def execBbSendCmd (x : Byte) (s : State) : Host.Outcome State Fault Refusal := request (planBbSendCmd x) s

/-- The meaning of BB_WRITE_BYTE (spec R163). -/
def execBbWriteByte (x : Byte) (s : State) : Host.Outcome State Fault Refusal := request (planBbWriteByte x) s

/-- The meaning of BB_READ_BYTE (spec R166). -/
def execBbReadByte (s : State) : Host.Outcome State Fault Refusal := request planBbReadByte s

end Sys2Proof.Machine
end

