-- ==== Sys2Proof/Machine/Frames.lean ====
section
/-! DEFINITION. The four frame opcodes, as direct calls of the codec and the transport (spec R120-R123). The engine's
registers are not written: "The engine registers are written by the caller's rule, not here" (spec R117). -/

namespace Sys2Proof.Machine

/-- The meaning of FR_WRITE_ROM: one Transact; a completed 2-byte write to a GPIO word sets that register (spec R120). -/
def execFrWriteRom (addr : Word) (payload : List Byte) (s : State) : Host.Outcome State Fault Refusal :=
  .next (noteRomWrite addr payload (exchangeOutcome 1 s).isOk (frameWrite opWriteRom addr payload s))

/-- The meaning of FR_READ_ROM: one Transact, and the response decoded (spec R121). -/
def execFrReadRom (addr : Word) (len : Half) (s : State) : Host.Outcome State Fault Refusal :=
  .next (frameRead opReadRom addr len s)

/-- The meaning of FR_WRITE_RAM: one Transact; the GPIO registers are not in RAM space (spec R122). -/
def execFrWriteRam (addr : Word) (payload : List Byte) (s : State) : Host.Outcome State Fault Refusal :=
  .next (frameWrite opWriteRam addr payload s)

/-- The meaning of FR_READ_RAM: one Transact, and the response decoded (spec R123). -/
def execFrReadRam (addr : Word) (len : Half) (s : State) : Host.Outcome State Fault Refusal :=
  .next (frameRead opReadRam addr len s)

end Sys2Proof.Machine
end

