-- ==== Sys2Proof/Machine/Gpio.lean ====
section
/-! DEFINITION. The GPIO register proxy (spec section 41). -/

namespace Sys2Proof.Machine

/-- GPIO_WRITE16: one write access (spec R144). -/
def planGpioWrite16 (a : Byte) (v : Half) : Plan where
  word := requestWord 0x4#4 0#4 a v
  ok := evenAddr a
  clears := 0
  seq := [.gpioWrite a v]
  close := none

/-- GPIO_READ16: one 16-bit read access into RESULT (spec R145, R146). -/
def planGpioRead16 (a : Byte) : Plan where
  word := requestWord 0x5#4 0#4 a 0#16
  ok := evenAddr a
  clears := 0
  seq := [.gpioRead a .setResult]
  close := none

/-- GPIO_READN: one raw read access of len bytes into RBUF (spec R147, R148). -/
def planGpioReadN (a : Byte) (len : Half) : Plan where
  word := requestWord 0x6#4 0#4 a len
  ok := evenAddr a && readLenOk len
  clears := 0
  seq := [.gpioReadN a len]
  close := none

/-- The meaning of GPIO_WRITE16 (spec R144). -/
def execGpioWrite16 (a : Byte) (v : Half) (s : State) : Host.Outcome State Fault Refusal := request (planGpioWrite16 a v) s

/-- The meaning of GPIO_READ16 (spec R145). -/
def execGpioRead16 (a : Byte) (s : State) : Host.Outcome State Fault Refusal := request (planGpioRead16 a) s

/-- The meaning of GPIO_READN (spec R147). -/
def execGpioReadN (a : Byte) (len : Half) (s : State) : Host.Outcome State Fault Refusal := request (planGpioReadN a len) s

end Sys2Proof.Machine
end

