-- ==== Sys2Proof/Machine/Session.lean ====
section
/-! DEFINITION. The RTC session sequencer: RTC_TXN and its nine commands (spec section 43). -/

namespace Sys2Proof.Machine

/-- The transaction of command byte c and data-phase length n: "one parameterized routine" (spec R180, R181, R188). A read
command's acceptance clears BUF[0..n-1] (spec R92); CLOSE_IDX is the length of what stands before Close (spec R186). -/
def txnPlan (c : Byte) (n : BitVec 4) (s : State) : Plan where
  word := requestWord 0x7#4 n c 0#16
  ok := txnOk s.params c n
  clears := if isReadCommand c then n.toNat else 0
  seq := txnSeq c n.toNat s.buf
  close := some (txnBody c n.toNat s.buf).length

/-- The meaning of RTC_TXN (spec R180). -/
def execRtcTxn (c : Byte) (n : BitVec 4) (s : State) : Host.Outcome State Fault Refusal := request (txnPlan c n s) s

/-- The meaning of RTC_RESET: no data phase (spec R190). -/
def execRtcReset (s : State) : Host.Outcome State Fault Refusal := request (txnPlan 0x60#8 0#4 s) s

/-- The meaning of RTC_WRITE_STATUS: one data byte from BUF[0] (spec R191). -/
def execRtcWriteStatus (s : State) : Host.Outcome State Fault Refusal := request (txnPlan 0x62#8 1#4 s) s

/-- The meaning of RTC_READ_STATUS: one data byte into BUF[0] (spec R192). -/
def execRtcReadStatus (s : State) : Host.Outcome State Fault Refusal := request (txnPlan 0x63#8 1#4 s) s

/-- The meaning of RTC_WRITE_DATE: seven data bytes from BUF (spec R193). -/
def execRtcWriteDate (s : State) : Host.Outcome State Fault Refusal := request (txnPlan 0x64#8 7#4 s) s

/-- The meaning of RTC_READ_DATE: seven data bytes into BUF (spec R194). -/
def execRtcReadDate (s : State) : Host.Outcome State Fault Refusal := request (txnPlan 0x65#8 7#4 s) s

/-- The meaning of RTC_WRITE_TIME: N_TIME data bytes from BUF (spec R195). -/
def execRtcWriteTime (n : BitVec 4) (s : State) : Host.Outcome State Fault Refusal := request (txnPlan 0x66#8 n s) s

/-- The meaning of RTC_READ_TIME: N_TIME data bytes into BUF (spec R196). -/
def execRtcReadTime (n : BitVec 4) (s : State) : Host.Outcome State Fault Refusal := request (txnPlan 0x67#8 n s) s

/-- The meaning of RTC_WRITE_ALARM: N_ALARM data bytes from BUF (spec R197). -/
def execRtcWriteAlarm (n : BitVec 4) (s : State) : Host.Outcome State Fault Refusal := request (txnPlan 0x68#8 n s) s

/-- The meaning of RTC_READ_ALARM: N_ALARM data bytes into BUF (spec R198). -/
def execRtcReadAlarm (n : BitVec 4) (s : State) : Host.Outcome State Fault Refusal := request (txnPlan 0x69#8 n s) s

end Sys2Proof.Machine
end

