-- ==== Sys2Proof/Machine/Dispatch.lean ====
section
/-! DEFINITION. One arm per instruction. -/

namespace Sys2Proof.Machine

def exec (i : Instr) (s : State) : Host.Outcome State Fault Refusal :=
  match i with
  | .bbSendCmd x => Sys2Proof.Machine.execBbSendCmd x s
  | .bbWriteByte x => Sys2Proof.Machine.execBbWriteByte x s
  | .bbReadByte => Sys2Proof.Machine.execBbReadByte s
  | .gpioWrite16 a v => Sys2Proof.Machine.execGpioWrite16 a v s
  | .gpioRead16 a => Sys2Proof.Machine.execGpioRead16 a s
  | .gpioReadN a len => Sys2Proof.Machine.execGpioReadN a len s
  | .rtcTxn c n => Sys2Proof.Machine.execRtcTxn c n s
  | .rtcReset => Sys2Proof.Machine.execRtcReset s
  | .rtcWriteStatus => Sys2Proof.Machine.execRtcWriteStatus s
  | .rtcReadStatus => Sys2Proof.Machine.execRtcReadStatus s
  | .rtcWriteDate => Sys2Proof.Machine.execRtcWriteDate s
  | .rtcReadDate => Sys2Proof.Machine.execRtcReadDate s
  | .rtcWriteTime n => Sys2Proof.Machine.execRtcWriteTime n s
  | .rtcReadTime n => Sys2Proof.Machine.execRtcReadTime n s
  | .rtcWriteAlarm n => Sys2Proof.Machine.execRtcWriteAlarm n s
  | .rtcReadAlarm n => Sys2Proof.Machine.execRtcReadAlarm n s
  | .frWriteRom addr payload => Sys2Proof.Machine.execFrWriteRom addr payload s
  | .frReadRom addr len => Sys2Proof.Machine.execFrReadRom addr len s
  | .frWriteRam addr payload => Sys2Proof.Machine.execFrWriteRam addr payload s
  | .frReadRam addr len => Sys2Proof.Machine.execFrReadRam addr len s

end Sys2Proof.Machine
end

