-- ==== Sys2Proof/Machine/Step.lean ====
section
/-! DEFINITION. The step: fetch, decode, execute; or a step that executes nothing (reset, `write_buf`, waiting). -/

namespace Sys2Proof.Machine

/-- One step of the machine: what the engine executes next is decoded and executed (spec R92, R143); a code that is no
instruction is turned away (spec R265); with nothing to execute, the outside's next event happens (spec R31, R290). -/
def step (s : State) : Host.Outcome State Fault Refusal :=
  match fetch s with
  | some (c, s') =>
    match decode c with
    | .ok i => exec i s'
    | .error _ => turnAway c s'
  | none => .next (idleEvent s)

/-- s with the instruction of an opcode-table word presented first at the port and the engine at IDLE with no reset asked for,
so that the next step executes exactly it. It stands for the client's `submit` or direct call (log 15). -/
def State.withFetchWord (s : State) (nbits w : Nat) : State :=
  { s with phase := .idle, resetReq := false, port := .present (tableCode nbits w) :: s.port }

end Sys2Proof.Machine
end

