-- ==== Sys2Proof/Machine/Client.lean ====
section
/-! DEFINITION. CLIENT SOFTWARE, outside the block (spec section 44, R6): the BCD codec, the date-time and status operations, the
presence detector, the cache and the persisted snapshot. It uses the engine through its port and has no part in `step`. -/

namespace Sys2Proof.Machine

/-! ### BCD codec (spec R220-R223); `none` is DATA -/

/-- `BcdEnc(v)` (spec R220). -/
def bcdEnc (v : Int) : Option Byte :=
  if 0 ≤ v ∧ v ≤ 99 then some (BitVec.ofNat 8 ((v.toNat / 10) <<< 4 ||| v.toNat % 10)) else none

/-- `BcdDec(b)`: nibbles above 9 are DATA; the field's range is not checked (spec R221). -/
def bcdDec (b : Byte) : Option Nat :=
  if 9 < (b &&& 0x0F#8).toNat ∨ 9 < (b >>> 4 &&& 0x0F#8).toNat then none
  else some ((b &&& 0x0F#8).toNat + (b >>> 4 &&& 0x0F#8).toNat * 10)

/-- `HourEnc(h)` for h in 0..23, with the PM flag for every h >= 12 (spec R222); outside that domain DATA (log 16). -/
def hourEnc (h : Int) : Option Byte :=
  if 0 ≤ h ∧ h ≤ 23 then (bcdEnc h).map fun b => b ||| if 12 ≤ h then 0x80#8 else 0x00#8 else none

/-- `HourDec(b)`: the PM flag masked off (spec R223). -/
def hourDec (b : Byte) : Option Nat := bcdDec (b &&& 0x7F#8)

/-! ### Date-time fields (spec R224) -/

/-- The seven fields, in buffer order (spec R224). -/
inductive DateField where
  | year | month | day | weekday | hour | minute | second
  deriving DecidableEq, Repr

/-- The fields in buffer order (spec R224). -/
def dateFields : List DateField := [.year, .month, .day, .weekday, .hour, .minute, .second]

/-- The field's index j in BUF (spec R224). -/
def DateField.slot : DateField → Fin 7
  | .year => 0 | .month => 1 | .day => 2 | .weekday => 3 | .hour => 4 | .minute => 5 | .second => 6

/-- The least value of the field's range (spec R224). -/
def DateField.least : DateField → Int
  | .month => 1 | .day => 1 | .year => 0 | .weekday => 0 | .hour => 0 | .minute => 0 | .second => 0

/-- The greatest value of the field's range (spec R224). -/
def DateField.greatest : DateField → Int
  | .year => 99 | .month => 12 | .day => 31 | .weekday => 6 | .hour => 23 | .minute => 59 | .second => 59

/-- The value a field takes when its byte fails to decode (spec R224, R227). -/
def DateField.fallback : DateField → Int
  | .month => 1 | .day => 1 | .year => 0 | .weekday => 0 | .hour => 0 | .minute => 0 | .second => 0

/-- A date and time, one number per field (spec R224). -/
structure DateTime where
  year : Int
  month : Int
  day : Int
  weekday : Int
  hour : Int
  minute : Int
  second : Int
  deriving DecidableEq, Repr

/-- The number of a field. -/
def DateTime.field (d : DateTime) : DateField → Int
  | .year => d.year | .month => d.month | .day => d.day | .weekday => d.weekday
  | .hour => d.hour | .minute => d.minute | .second => d.second

/-- The field's byte (spec R224, R226). -/
def encodeField (f : DateField) (v : Int) : Option Byte := if f = .hour then hourEnc v else bcdEnc v

/-- The field's number (spec R224, R227). -/
def decodeField (f : DateField) (b : Byte) : Option Nat := if f = .hour then hourDec b else bcdDec b

/-- The fields outside their range (spec R226). -/
def badFields (d : DateTime) : List DateField :=
  dateFields.filter fun f => !decide (f.least ≤ d.field f ∧ d.field f ≤ f.greatest)

/-- The number read for a field: its default when the byte fails to decode (spec R227). -/
def fieldValue (raw : Vector Byte 7) (f : DateField) : Int :=
  match decodeField f raw[f.slot] with
  | some v => (v : Int)
  | none => f.fallback

/-- The date and time of a raw buffer (spec R227). -/
def decodeDate (raw : Vector Byte 7) : DateTime where
  year := fieldValue raw .year
  month := fieldValue raw .month
  day := fieldValue raw .day
  weekday := fieldValue raw .weekday
  hour := fieldValue raw .hour
  minute := fieldValue raw .minute
  second := fieldValue raw .second

/-- The fields reported with DATA (spec R227). -/
def reportedFields (raw : Vector Byte 7) : List DateField :=
  dateFields.filter fun f => (decodeField f raw[f.slot]).isNone

/-! ### The client: state, errors, "submit and wait" -/

/-- The cached result of the last `read_date_time` (spec R248). -/
structure CachedDate where
  raw : Vector Byte 7
  fields : DateTime
  deriving DecidableEq, Repr

/-- The client with the engine it uses: CACHE is the client's own state, none at reset (spec R248). -/
structure ClientState where
  engine : State
  cache : Option CachedDate
  deriving DecidableEq, Repr

/-- The client right after reset (spec R38, R248). -/
def ClientState.reset : ClientState where
  engine := State.reset
  cache := none

/-- What a client operation raises (spec R253, R264). -/
inductive ClientError where
  /-- The engine's ERR, raised unchanged (spec R253). -/
  | engine (err : BitVec 4)
  /-- DATA, naming fields (spec R226). -/
  | data (fields : List DateField)
  /-- DATA: a malformed snapshot buffer (spec R251). -/
  | malformedSnapshot
  /-- The engine stopped with a fault: never from a state that meets the engine's invariant (log 11). -/
  | stopped
  deriving DecidableEq, Repr

/-- Nothing is running, held or asked for. -/
def ready (s : State) : Bool := s.phase == .idle && s.port.isEmpty && !s.resetReq

/-- One step of the engine, as the client sees it. A step that is an engine reset (spec R290) also empties CACHE: "No RTC
snapshot is cached at reset" (spec R38, R248; DEDUCED, log 13). `none` when the engine stops. -/
def clientStep (c : ClientState) : Option ClientState :=
  match step c.engine with
  | .next s => some { engine := s, cache := if c.engine.resetReq then none else c.cache }
  | .fault _ => none
  | .refused _ => none

/-- Steps until the engine is ready, at most k of them. -/
def runToReady : Nat → ClientState → Option ClientState
  | 0, c => if ready c.engine then some c else none
  | k + 1, c => if ready c.engine then some c else (clientStep c).bind (runToReady k)

/-- More steps than the operations at the port and the running request can take (spec R24: at most 434 accesses each). -/
def enoughSteps (s : State) : Nat := 512 * (s.port.length + 2)

/-- Present an operation at the port, after those already held (spec R31). -/
def present (op : PortOp) (c : ClientState) : ClientState :=
  { c with engine := { c.engine with port := c.engine.port ++ [op] } }

/-- "Submit and wait": submit the word, wait until `STATUS.BUSY = 0`, then read ERR. A reset that was asked for comes first, and
empties CACHE (`clientStep`). -/
def submitAndWait (w : Word) (c : ClientState) : Except ClientError Unit × ClientState :=
  let held := present (.present (.request w)) c
  match runToReady (enoughSteps held.engine) held with
  | none => (.error .stopped, c)
  | some c' => (if c'.engine.err = errNum .ok then .ok () else .error (.engine c'.engine.err), c')

/-- CACHE <- none (spec R248). -/
def dropCache (c : ClientState) : ClientState := { c with cache := none }

/-! ### Date-time and status operations (spec R226-R229) -/

/-- `write_date_time(f)`: every field is checked before anything is presented (spec R226). -/
def writeDateTime (d : DateTime) (c : ClientState) : Except ClientError Unit × ClientState :=
  match badFields d with
  | f :: fs => (.error (.data (f :: fs)), c)
  | [] =>
    let c' := dateFields.foldl (fun c f => present (.writeBuf f.slot ((encodeField f (d.field f)).getD 0#8)) c) c
    let (r, c'') := submitAndWait 0x77640000#32 c'
    (r, dropCache c'')

/-- `read_date_time()`: the fields, and the list of those reported (spec R227). -/
def readDateTime (c : ClientState) : Except ClientError (DateTime × List DateField) × ClientState :=
  match submitAndWait 0x77650000#32 c with
  | (.error e, c') => (.error e, c')
  | (.ok _, c') =>
    (.ok (decodeDate c'.engine.buf, reportedFields c'.engine.buf),
      { c' with cache := some { raw := c'.engine.buf, fields := decodeDate c'.engine.buf } })

/-- The status the client reports: the two defined flags (spec R228). -/
def reportedStatus (raw : Byte) : Byte := raw &&& 0xC0#8

/-- `read_status()`: the raw byte and the reported status (spec R229). -/
def readRtcStatus (c : ClientState) : Except ClientError (Byte × Byte) × ClientState :=
  match submitAndWait 0x71630000#32 c with
  | (.error e, c') => (.error e, c')
  | (.ok _, c') => (.ok (c'.engine.buf[0], reportedStatus c'.engine.buf[0]), c')

/-- `write_status(s)` (spec R229). -/
def writeRtcStatus (st : Byte) (c : ClientState) : Except ClientError Unit × ClientState :=
  let (r, c') := submitAndWait 0x71620000#32 (present (.writeBuf 0 st) c)
  (r, dropCache c')

/-- `reset()` (spec R229). -/
def resetRtc (c : ClientState) : Except ClientError Unit × ClientState :=
  let (r, c') := submitAndWait 0x70600000#32 c
  (r, dropCache c')

/-! ### Presence detector (spec R240-R246) -/

/-- The detection results (spec R246). -/
inductive DetectionResult where
  | present | powerLost | unexpectedFormat | unchanged | absent
  deriving DecidableEq, Repr

/-- The code of a detection result (spec R246). -/
def DetectionResult.code : DetectionResult → Nat
  | .present => 0 | .powerLost => 1 | .unexpectedFormat => 2 | .unchanged => 3 | .absent => 4

/-- RBUF[0..5] (spec R243, R244). -/
def sixBytes (c : ClientState) : List Byte := c.engine.rbuf.toList.take 6

/-- snapshot_b with the mapping enabled, then the mapping disabled again; on an error of the read one Read-Enable = 0 write
is made and the error raised (spec R240, R244). -/
def snapshotB (c : ClientState) : Except ClientError (List Byte) × ClientState :=
  match submitAndWait 0x40C80001#32 c with
  | (.error e, c) => (.error e, c)
  | (.ok _, c) =>
    match submitAndWait 0x60C40006#32 c with
    | (.error e, c) => (.error e, (submitAndWait 0x40C80000#32 c).2)
    | (.ok _, c) =>
      match submitAndWait 0x40C80000#32 c with
      | (.error e, c') => (.error e, c')
      | (.ok _, c') => (.ok (sixBytes c), c')

/-- `detect()`: the result and `unexpected_format`, which PowerLost's immediate return leaves undetermined (spec
R240-R242). -/
def detect (c : ClientState) : Except ClientError (DetectionResult × Option Bool) × ClientState :=
  match readRtcStatus c with
  | (.error e, c) => (.error e, c)
  | (.ok (st, _), c) =>
    if st.getLsbD 7 then (.ok (.powerLost, none), c)
    else
      match submitAndWait 0x60C40006#32 c with
      | (.error e, c) => (.error e, c)
      | (.ok _, c) =>
        match snapshotB c with
        | (.error e, c') => (.error e, c')
        | (.ok b, c') => (.ok (if sixBytes c = b then .absent else .present, some (!st.getLsbD 6)), c')

/-! ### Cached snapshot and persistence (spec R249-R251) -/

/-- The parameter `H24_CACHE_BIT` (spec R249, D37): open, both values kept. -/
inductive H24CacheBit where
  | seven | zero
  deriving DecidableEq, Repr

/-- The bit index that the parameter stands for (spec R249). -/
def H24CacheBit.index : H24CacheBit → Nat
  | .seven => 7 | .zero => 0

/-- `H24FromCache(snap)` (spec R249); not the live path, which is bit 6 (spec R228). For a buffer that has no byte 7 the spec
states no value, and it is a free value (DESIGN CHOICE, log 16). -/
def h24FromCache (bit : H24CacheBit) (snap : List Byte) : Bool :=
  if 7 < snap.length then (byteAt snap 7).getLsbD bit.index else Config.h24OfShortBuffer bit.index snap

/-- The 16-byte persisted snapshot: the raw date, the raw status, the timestamp in unsigned seconds (spec R250). -/
def persistSnapshot (raw : Vector Byte 7) (status : Byte) (t : BitVec 64) : List Byte :=
  raw.toList ++ [status] ++ le 8 t.toNat

/-- A restored snapshot (spec R251). -/
structure Restored where
  fields : DateTime
  reported : List DateField
  status : Byte
  time : Nat
  deriving DecidableEq, Repr

/-- Restoring a snapshot; a length other than 16 is DATA (spec R251). -/
def restoreSnapshot (bs : List Byte) : Except ClientError Restored :=
  if bs.length ≠ 16 then .error .malformedSnapshot
  else
    let raw : Vector Byte 7 := Vector.ofFn fun k => byteAt bs k.val
    .ok { fields := decodeDate raw, reported := reportedFields raw, status := byteAt bs 7, time := fromLe (bs.drop 8) }

end Sys2Proof.Machine
end

