-- ==== Sys2Proof/Machine/Plans.lean ====
section
/-! DEFINITION. The plan of every request instruction in one function, for the statements; exec calls the meanings directly. -/

namespace Sys2Proof.Machine

/-- What a request instruction denotes in a state (spec R23); none for a frame instruction. -/
def planOf (i : Instr) (s : State) : Option Plan :=
  match i with
  | .bbSendCmd x => some (planBbSendCmd x)
  | .bbWriteByte x => some (planBbWriteByte x)
  | .bbReadByte => some planBbReadByte
  | .gpioWrite16 a v => some (planGpioWrite16 a v)
  | .gpioRead16 a => some (planGpioRead16 a)
  | .gpioReadN a len => some (planGpioReadN a len)
  | .rtcTxn c n => some (txnPlan c n s)
  | .rtcReset => some (txnPlan 0x60#8 0#4 s)
  | .rtcWriteStatus => some (txnPlan 0x62#8 1#4 s)
  | .rtcReadStatus => some (txnPlan 0x63#8 1#4 s)
  | .rtcWriteDate => some (txnPlan 0x64#8 7#4 s)
  | .rtcReadDate => some (txnPlan 0x65#8 7#4 s)
  | .rtcWriteTime n => some (txnPlan 0x66#8 n s)
  | .rtcReadTime n => some (txnPlan 0x67#8 n s)
  | .rtcWriteAlarm n => some (txnPlan 0x68#8 n s)
  | .rtcReadAlarm n => some (txnPlan 0x69#8 n s)
  | .frWriteRom _ _ => none
  | .frReadRom _ _ => none
  | .frWriteRam _ _ => none
  | .frReadRam _ _ => none

end Sys2Proof.Machine
end

