-- ==== Sys2Proof/Safety.lean ====
section
/-! DEFINITION. The terms claims use: `WF` on the bits of a word, the engine's invariant, what the observation record may hold, and
the record of an undisturbed run. -/

namespace Sys2Proof.Machine

/-- `WF(word)` read off the bits of the word (spec R93), independently of the decoder. -/
def wordWF (p : Params) (w : Word) : Prop :=
  let op := w.extractLsb' 28 4
  let n := w.extractLsb' 24 4
  let a := w.extractLsb' 16 8
  let v := w.extractLsb' 0 16
  ((op = 0x1#4 ∨ op = 0x2#4) ∧ n = 0#4 ∧ a = 0#8 ∧ v.toNat < 256) ∨
  (op = 0x3#4 ∧ n = 0#4 ∧ a = 0#8 ∧ v = 0#16) ∨
  (op = 0x4#4 ∧ n = 0#4 ∧ a.toNat % 2 = 0) ∨
  (op = 0x5#4 ∧ n = 0#4 ∧ a.toNat % 2 = 0 ∧ v = 0#16) ∨
  (op = 0x6#4 ∧ n = 0#4 ∧ a.toNat % 2 = 0 ∧ 1 ≤ v.toNat ∧ v.toNat ≤ 16) ∨
  (op = 0x7#4 ∧ v = 0#16 ∧
    ((a = 0x60#8 ∧ n = 0#4) ∨ ((a = 0x62#8 ∨ a = 0x63#8) ∧ n = 1#4) ∨ ((a = 0x64#8 ∨ a = 0x65#8) ∧ n = 7#4) ∨
      ((a = 0x66#8 ∨ a = 0x67#8) ∧ p.nTime.map Fin.val = some n.toNat) ∨
      ((a = 0x68#8 ∨ a = 0x69#8) ∧ p.nAlarm.map Fin.val = some n.toNat)))

/-- A value ERR may hold: OK, a link error, or REFUSED; never PROTOCOL, DATA or a reserved code (spec R260, R263, R264). -/
abbrev LegalErr (e : BitVec 4) : Prop := e = 0#4 ∨ e = 1#4 ∨ e = 2#4 ∨ e = 3#4 ∨ e = 5#4

/-- REQ holds a well-formed request with an access at SEQ_IDX (spec R21, R22, R25). -/
def RunningRequest (s : State) : Prop :=
  ∃ i p, decode (.request s.req) = .ok i ∧ planOf i s = some p ∧ p.ok = true ∧ s.seqIdx.toNat < p.seq.length

/-- The invariant of the engine: ERR is legal; at IDLE with no request completed there is no error; while BUSY, DONE is 0, ERR
is not REFUSED, and a well-formed request is at one of its accesses (spec R20-R26, R92, R260). -/
def EngineInv (s : State) : Prop :=
  LegalErr s.err ∧ (s.phase = .idle → s.done = false → s.err = 0#4) ∧
    (s.phase = .busy → s.done = false ∧ s.err ≠ 5#4 ∧ RunningRequest s)

/-- An entry of the observation record: a frame that `Encode` builds, its own response length, and an outcome that this
length admits (spec R39, R62, R110, R116). -/
def RecordOk (r : ExchangeRecord) : Prop :=
  (∃ op addr payload, encodeFrame op addr payload = .ok r.frame) ∧ respLen r.frame = some r.count ∧
    (∀ rs, r.outcome = .ok rs → rs.length = r.count) ∧ (r.outcome = .fail .short → 2 ≤ r.count)

/-- Every entry of the observation record is in order. -/
def HistoryOk (s : State) : Prop := ∀ r ∈ s.history, RecordOk r

/-- The link keeps its duty on a sequence: each access is answered with exactly the bytes of its response (spec R63). -/
def AnswersFit (seq : List Access) (as : List LinkAnswer) : Prop :=
  List.Forall₂ (fun acc a => a.bytes.length = accessCount acc) seq as

/-- What the observation record gains in an undisturbed run of a sequence (spec R39). -/
def recordsOf (seq : List Access) (as : List LinkAnswer) : List ExchangeRecord :=
  List.zipWith (fun acc a => { frame := accessFrame acc, count := accessCount acc, outcome := .ok a.bytes }) seq as

/-- The bit that a read access samples from its answer: bit 1 of the response's third byte, the SIO line (spec R165). -/
def answerBit (a : LinkAnswer) : Bool := (byteAt a.bytes 2).getLsbD 1

/-- A write access (spec R140). -/
def isWriteAccess : Access → Bool
  | .gpioWrite _ _ => true
  | .gpioRead _ _ => false
  | .gpioReadN _ _ => false

/-- The bytes a sequence sends on the link (spec R304). -/
def bytesSent (seq : List Access) : Nat := (seq.map fun acc => (accessFrame acc).length).sum

/-- The bytes a sequence receives when no exchange fails (spec R304). -/
def bytesReceived (seq : List Access) : Nat := (seq.map accessCount).sum

/-- The ERR code of a failed exchange (spec R260). -/
def failNumber : LinkFail → BitVec 4
  | .timeout => 1#4
  | .closed => 2#4
  | .short => 3#4

/-- A request instruction of the session sequencer: RTC_TXN and its nine commands (spec R180, R190-R198). -/
def isTransaction : Instr → Bool
  | .rtcTxn _ _ | .rtcReset | .rtcWriteStatus | .rtcReadStatus | .rtcWriteDate | .rtcReadDate => true
  | .rtcWriteTime _ | .rtcReadTime _ | .rtcWriteAlarm _ | .rtcReadAlarm _ => true
  | .bbSendCmd _ | .bbWriteByte _ | .bbReadByte | .gpioWrite16 _ _ | .gpioRead16 _ | .gpioReadN _ _ => false
  | .frWriteRom _ _ | .frReadRom _ _ | .frWriteRam _ _ | .frReadRam _ _ => false

end Sys2Proof.Machine
end

