-- ==== Sys2Proof/Certificates/Slice0/Obligations.lean ====
section
/-! DEFINITION. The statements for the provers. -/

open Sys2Proof Sys2Proof.Machine

/-! ### Encodings -/

/-- Decoding what the encoder writes for an instruction gives it back, with every operand, for every operand the encoding
admits; only a generic RTC_TXN whose cmd and n are a row's own comes back as that row's instruction (log 10). -/
def Obligations.DecodeOfEncodeIsTheInstruction : Prop :=
  ∀ i : Instr, i.encodable = true →
    decode (encode i) = .ok i.canonical ∧ ((∀ c n, i ≠ .rtcTxn c n) → i.canonical = i)

/-- Each code that decodes has one meaning: encoding that instruction gives the code back. -/
def Obligations.EncodeOfDecodeIsTheCode : Prop :=
  ∀ (c : Code) (i : Instr), decode c = .ok i → encode i = c ∧ i.encodable = true

/-- The decoder reads the request rows of spec/opcode_table.json: a word decodes to a row's instruction exactly when it has
the row's fixed bits, and the operands are the row's fields (R90: plain extraction). RTC_TXN's own row takes the OP = 7 words
that are no command's row (log 10). -/
def Obligations.WordsDecodeByTheirRow : Prop :=
  ∀ w : Word,
    (w &&& 0xFFFFFF00#32 = 0x10000000#32 ↔ decode (.request w) = .ok (.bbSendCmd (w.extractLsb' 0 8))) ∧
    (w &&& 0xFFFFFF00#32 = 0x20000000#32 ↔ decode (.request w) = .ok (.bbWriteByte (w.extractLsb' 0 8))) ∧
    (w = 0x30000000#32 ↔ decode (.request w) = .ok .bbReadByte) ∧
    (w &&& 0xFF010000#32 = 0x40000000#32 ↔
      decode (.request w) = .ok (.gpioWrite16 (w.extractLsb' 16 8) (w.extractLsb' 0 16))) ∧
    (w &&& 0xFF01FFFF#32 = 0x50000000#32 ↔ decode (.request w) = .ok (.gpioRead16 (w.extractLsb' 16 8))) ∧
    (w &&& 0xFF010000#32 = 0x60000000#32 ↔
      decode (.request w) = .ok (.gpioReadN (w.extractLsb' 16 8) (w.extractLsb' 0 16))) ∧
    (w = 0x70600000#32 ↔ decode (.request w) = .ok .rtcReset) ∧
    (w = 0x71620000#32 ↔ decode (.request w) = .ok .rtcWriteStatus) ∧
    (w = 0x71630000#32 ↔ decode (.request w) = .ok .rtcReadStatus) ∧
    (w = 0x77640000#32 ↔ decode (.request w) = .ok .rtcWriteDate) ∧
    (w = 0x77650000#32 ↔ decode (.request w) = .ok .rtcReadDate) ∧
    (w &&& 0xF0FFFFFF#32 = 0x70660000#32 ↔ decode (.request w) = .ok (.rtcWriteTime (w.extractLsb' 24 4))) ∧
    (w &&& 0xF0FFFFFF#32 = 0x70670000#32 ↔ decode (.request w) = .ok (.rtcReadTime (w.extractLsb' 24 4))) ∧
    (w &&& 0xF0FFFFFF#32 = 0x70680000#32 ↔ decode (.request w) = .ok (.rtcWriteAlarm (w.extractLsb' 24 4))) ∧
    (w &&& 0xF0FFFFFF#32 = 0x70690000#32 ↔ decode (.request w) = .ok (.rtcReadAlarm (w.extractLsb' 24 4))) ∧
    ((w &&& 0xF000FFFF#32 = 0x70000000#32 ∧
        w ∉ [0x70600000#32, 0x71620000#32, 0x71630000#32, 0x77640000#32, 0x77650000#32] ∧
        w &&& 0xF0FFFFFF#32 ∉ [0x70660000#32, 0x70670000#32, 0x70680000#32, 0x70690000#32]) ↔
      decode (.request w) = .ok (.rtcTxn (w.extractLsb' 16 8) (w.extractLsb' 24 4)))

/-- Ten encodings written out by hand: the examples of R161, R163, R166, R144, R145, R147, R190, R122 and R123, and a word of
OP = 7 whose cmd is reserved, put together by R90, R91 and R180. That an OP = 7 word is read as the most specific row of the
opcode table (0x70600000 as RTC_RESET and not RTC_TXN, and 0x70610000, which WF refuses at submission, as RTC_TXN) is the model's
inference (DEDUCED, log 10). -/
def Obligations.SampleEncodingsDecode : Prop :=
  decode (.request 0x10000065#32) = .ok (.bbSendCmd 0x65#8) ∧
  decode (.request 0x20000040#32) = .ok (.bbWriteByte 0x40#8) ∧
  decode (.request 0x30000000#32) = .ok .bbReadByte ∧
  decode (.request 0x40C80001#32) = .ok (.gpioWrite16 0xC8#8 0x0001#16) ∧
  decode (.request 0x50C40000#32) = .ok (.gpioRead16 0xC4#8) ∧
  decode (.request 0x60C40006#32) = .ok (.gpioReadN 0xC4#8 0x0006#16) ∧
  decode (.request 0x70600000#32) = .ok .rtcReset ∧
  decode (.request 0x70610000#32) = .ok (.rtcTxn 0x61#8 0#4) ∧
  decode (.frame [0x08#8, 0x00#8, 0xF7#8, 0x34#8, 0x12#8, 0x00#8, 0x00#8, 0xAA#8, 0x00#8, 0x00#8]) =
    .ok (.frWriteRam 0x00001234#32 [0xAA#8]) ∧
  decode (.frame [0x09#8, 0x00#8, 0xF8#8, 0x00#8, 0x00#8, 0x01#8, 0x00#8, 0x04#8, 0x00#8, 0x00#8, 0x00#8]) =
    .ok (.frReadRam 0x00010000#32 0x0004#16)

/-- A submitted word with a reserved OP is refused: REQ, ERR and DONE are written, nothing else but the port changes. -/
def Obligations.ReservedOpsAreRefused : Prop :=
  ∀ (s : State) (w : Word) (rest : List PortOp),
    s.phase = .idle → s.resetReq = false → s.port = .present (.request w) :: rest →
    w.extractLsb' 28 4 = 0x0#4 ∨ 8 ≤ (w.extractLsb' 28 4).toNat →
    step s = .next { s with port := rest, req := w, err := 5#4, done := true }

/-! ### The frame codec -/

/-- `Encode`: its four refusals, in order, and the bytes it builds otherwise. -/
def Obligations.EncodeRefusesOrBuildsTheLayout : Prop :=
  ∀ (op : Byte) (addr : Nat) (payload : List Byte),
    let known := op = 0xF5#8 ∨ op = 0xF6#8 ∨ op = 0xF7#8 ∨ op = 0xF8#8
    let read := op = 0xF6#8 ∨ op = 0xF8#8
    (¬known → encodeFrame op addr payload = .error .badOpcode) ∧
    (known → 4294967296 ≤ addr → encodeFrame op addr payload = .error .badAddress) ∧
    (known → addr < 4294967296 → 65528 < payload.length → encodeFrame op addr payload = .error .payloadTooLong) ∧
    (read → addr < 4294967296 → payload.length ≤ 65528 → payload.length ≠ 2 →
      encodeFrame op addr payload = .error .badReadPayload) ∧
    (known → addr < 4294967296 → payload.length ≤ 65528 → (read → payload.length = 2) →
      encodeFrame op addr payload =
        .ok ([BitVec.ofNat 8 (payload.length + 7), BitVec.ofNat 8 ((payload.length + 7) / 256), op,
              BitVec.ofNat 8 addr, BitVec.ofNat 8 (addr / 256), BitVec.ofNat 8 (addr / 65536),
              BitVec.ofNat 8 (addr / 16777216)] ++ payload ++ [0x00#8, 0x00#8]))

/-- The length law of every frame that `Encode` returns. -/
def Obligations.FrameLengthLaw : Prop :=
  ∀ (op : Byte) (addr : Nat) (payload f : List Byte), encodeFrame op addr payload = .ok f →
    fromLe (f.take 2) = f.length - 2 ∧ f.length - 2 = 7 + payload.length

/-- The round-trip laws: (a) parsing an encoded frame gives back its parts; (b) LENGTH counts what follows it. -/
def Obligations.ParseOfEncodeRoundTrip : Prop :=
  ∀ (op : Byte) (addr : Nat) (payload f : List Byte), encodeFrame op addr payload = .ok f →
    parseFrame f = .ok (op, addr, payload) ∧ (f.drop 2).length = fromLe (f.take 2)

/-- The parser accepts exactly the frames that `Encode` builds, with their own parts. -/
def Obligations.ParserAcceptsExactlyEncodedFrames : Prop :=
  ∀ (bs : List Byte) (op : Byte) (addr : Nat) (payload : List Byte),
    parseFrame bs = .ok (op, addr, payload) ↔ encodeFrame op addr payload = .ok bs

/-- `DecodeResponse`: PROTOCOL with the length when it is not the expected length plus 2, else the bytes after the header. -/
def Obligations.ResponseDecodingChecksTheLengthOnly : Prop :=
  ∀ (raw : List Byte) (n : Nat),
    (raw.length ≠ n + 2 → decodeResponse raw n = .error raw.length) ∧
    (∀ h0 h1 data, raw = h0 :: h1 :: data → data.length = n → decodeResponse raw n = .ok data)

/-- `RespLen` of a frame built by `Encode`: 1 for a write, the requested length plus 2 for a read. -/
def Obligations.ResponseLengthOfEncodedFrames : Prop :=
  ∀ (op : Byte) (addr : Nat) (payload f : List Byte), encodeFrame op addr payload = .ok f →
    (op = 0xF5#8 ∨ op = 0xF7#8 → respLen f = some 1) ∧
    (∀ L : Half, op = 0xF6#8 ∨ op = 0xF8#8 → payload = [L.setWidth 8, (L >>> 8).setWidth 8] →
      respLen f = some (L.toNat + 2))

/-- A reserved frame opcode is refused by `Encode`, rejected by the parser, and never reaches the link: presented to the
transport it is turned away with REFUSED and no exchange. -/
def Obligations.ReservedFrameOpcodesNeverReachTheLink : Prop :=
  ∀ op : Byte, op ∉ [0xF5#8, 0xF6#8, 0xF7#8, 0xF8#8] →
    (∀ addr payload f, encodeFrame op addr payload ≠ .ok f) ∧
    (∀ bs parts, byteAt bs 2 = op → parseFrame bs ≠ .ok parts) ∧
    (∀ (s : State) (bs : List Byte) (rest : List PortOp), byteAt bs 2 = op →
      s.phase = .idle → s.resetReq = false → s.port = .present (.frame bs) :: rest →
      step s = .next { s with port := rest, codecRet := .error .refused })

/-- A stream that begins with an encoded frame splits there: LENGTH first, then exactly that many bytes. -/
def Obligations.StreamsSplitAfterAFrame : Prop :=
  ∀ (op : Byte) (addr : Nat) (payload f rest : List Byte), encodeFrame op addr payload = .ok f →
    splitFrame (f ++ rest) = some (f, rest)

/-! ### Sequences -/

/-- A command byte is sent most significant bit first, a data byte least significant bit first: group i, write k has the
Data value with CS = 1, SIO the bit, SCK = 1 only in the fourth write. The two sequences are equal exactly for a byte equal to
its bit reversal. -/
def Obligations.SerialByteOrder : Prop :=
  ∀ x : Byte,
    (sendCmdSeq x).length = 32 ∧ (writeByteSeq x).length = 32 ∧
    (∀ i k : Nat, i < 8 → k < 4 →
      (sendCmdSeq x)[4 * i + k]? =
        some (.gpioWrite 0xC4#8 (BitVec.ofNat 16 (4 + 2 * (x.getLsbD (7 - i)).toNat + if k = 3 then 1 else 0))) ∧
      (writeByteSeq x)[4 * i + k]? =
        some (.gpioWrite 0xC4#8 (BitVec.ofNat 16 (4 + 2 * (x.getLsbD i).toNat + if k = 3 then 1 else 0)))) ∧
    (sendCmdSeq x = writeByteSeq x ↔ ∀ i : Nat, i < 8 → x.getLsbD i = x.getLsbD (7 - i))

/-- Every Data value of a BB sequence has CS = 1; in a transaction the Data writes with CS = 0 are the first write of the Open
pulse and of the two Close pulses. -/
def Obligations.ChipSelectIsHeld : Prop :=
  (∀ (x : Byte) (dst : SampleDst) (v : Half),
    .gpioWrite 0xC4#8 v ∈ sendCmdSeq x ++ writeByteSeq x ++ readByteSeq dst → v.getLsbD 2 = true) ∧
  (∀ (c : Byte) (n : Nat) (buf : Vector Byte 7) (k : Nat) (v : Half),
    (txnSeq c n buf)[k]? = some (.gpioWrite 0xC4#8 v) → v.getLsbD 2 = false →
      k = 1 ∨ k = (txnBody c n buf).length ∨ k = (txnBody c n buf).length + 2)

/-- The phases of a transaction as ranges of the index: Open [0, 4), Command [4, 36), Data [36, CLOSE_IDX), Close the last 5;
and CLOSE_IDX and SEQ_LEN as functions of the command and n. -/
def Obligations.TransactionPhases : Prop :=
  ∀ (c : Byte) (n : Nat) (buf : Vector Byte 7), n ≤ 7 →
    (txnSeq c n buf).take 4 =
      [.gpioWrite 0xC8#8 0x0001#16, .gpioWrite 0xC4#8 0x0001#16, .gpioWrite 0xC4#8 0x0005#16,
       .gpioWrite 0xC6#8 0x0007#16] ∧
    ((txnSeq c n buf).drop 4).take 32 = sendCmdSeq c ∧
    (txnBody c n buf).length =
      (if c = 0x60#8 then 36 else if c.getLsbD 0 = true then 37 + 56 * n else 36 + 32 * n) ∧
    (txnSeq c n buf).length = (txnBody c n buf).length + 5 ∧
    (txnSeq c n buf).drop (txnBody c n buf).length =
      [.gpioWrite 0xC4#8 0x0001#16, .gpioWrite 0xC4#8 0x0005#16, .gpioWrite 0xC4#8 0x0001#16,
       .gpioWrite 0xC4#8 0x0005#16, .gpioWrite 0xC8#8 0x0000#16]

/-- The data phase: a read command writes Control = 5 and then reads byte j into BUF[j] by 56 accesses, a write command sends
BUF[j] by 32 writes, ascending j. -/
def Obligations.DataPhases : Prop :=
  ∀ (c : Byte) (n : Nat) (buf : Vector Byte 7), n ≤ 7 → c ≠ 0x60#8 →
    (c.getLsbD 0 = true →
      (txnSeq c n buf)[36]? = some (.gpioWrite 0xC6#8 0x0005#16) ∧
      ∀ (j : Fin 7) (i : Fin 8) (k : Nat), j.val < n → k < 7 →
        (txnSeq c n buf)[37 + 56 * j.val + 7 * i.val + k]? =
          some (if k < 5 then .gpioWrite 0xC4#8 0x0004#16 else if k = 5 then .gpioWrite 0xC4#8 0x0005#16
                else .gpioRead 0xC4#8 (.sample (.buf j) i))) ∧
    (c.getLsbD 0 = false →
      ∀ (j : Fin 7) (k : Nat), j.val < n → k < 32 →
        (txnSeq c n buf)[36 + 32 * j.val + k]? = (writeByteSeq buf[j])[k]?)

/-- Accesses and link bytes of every request's sequence. -/
def Obligations.AccessAndByteCounts : Prop :=
  (∀ x : Byte, ∀ q ∈ [sendCmdSeq x, writeByteSeq x],
    q.length = 32 ∧ q.countP isWriteAccess = 32 ∧ bytesSent q = 352 ∧ bytesReceived q = 32) ∧
  (∀ dst, (readByteSeq dst).length = 56 ∧ (readByteSeq dst).countP isWriteAccess = 48 ∧
    bytesSent (readByteSeq dst) = 616 ∧ bytesReceived (readByteSeq dst) = 80) ∧
  (∀ a v, bytesSent [.gpioWrite a v] = 11 ∧ bytesReceived [.gpioWrite a v] = 1) ∧
  (∀ a act, bytesSent [.gpioRead a act] = 11 ∧ bytesReceived [.gpioRead a act] = 4) ∧
  (∀ a len, bytesSent [.gpioReadN a len] = 11 ∧ bytesReceived [.gpioReadN a len] = len.toNat + 2) ∧
  (∀ (c : Byte) (n : Nat) (buf : Vector Byte 7), n ≤ 7 → c ≠ 0x60#8 → c.getLsbD 0 = false →
    (txnSeq c n buf).length = 41 + 32 * n ∧ (txnSeq c n buf).countP isWriteAccess = 41 + 32 * n ∧
    bytesSent (txnSeq c n buf) = 11 * (41 + 32 * n) ∧ bytesReceived (txnSeq c n buf) = 41 + 32 * n) ∧
  (∀ (c : Byte) (n : Nat) (buf : Vector Byte 7), n ≤ 7 → c.getLsbD 0 = true →
    (txnSeq c n buf).length = 42 + 56 * n ∧ (txnSeq c n buf).countP isWriteAccess = 42 + 48 * n ∧
    bytesSent (txnSeq c n buf) = 11 * (42 + 56 * n) ∧ bytesReceived (txnSeq c n buf) = 42 + 80 * n) ∧
  (∀ buf : Vector Byte 7, (txnSeq 0x60#8 0 buf).length = 41 ∧ (txnSeq 0x60#8 0 buf).countP isWriteAccess = 41 ∧
    bytesSent (txnSeq 0x60#8 0 buf) = 451 ∧ bytesReceived (txnSeq 0x60#8 0 buf) = 41)

/-- Every well-formed request has at least one access, at most 434, and a transaction's Close is its last five. -/
def Obligations.SequencesFitTheIndex : Prop :=
  ∀ (i : Instr) (s : State) (p : Plan), planOf i s = some p → p.ok = true →
    1 ≤ p.seq.length ∧ p.seq.length ≤ 434 ∧ (∀ ci, p.close = some ci → ci + 5 = p.seq.length) ∧
    (p.close.isSome = isTransaction i)

/-! ### Submission: what each request does at IDLE

exec at IDLE is the submission, exec while BUSY one engine step (the model's form, log 1). -/

/-- BB_SEND_CMD, BB_WRITE_BYTE and BB_READ_BYTE are accepted at IDLE, with their words; nothing else changes. -/
def Obligations.BitBangRequestsAreAccepted : Prop :=
  ∀ (x : Byte) (s : State), s.phase = .idle →
    exec (.bbSendCmd x) s =
      .next { s with req := 0x10000000#32 ||| x.setWidth 32, err := 0#4, done := false, result := 0x0000#16,
                     seqIdx := 0#9, phase := .busy } ∧
    exec (.bbWriteByte x) s =
      .next { s with req := 0x20000000#32 ||| x.setWidth 32, err := 0#4, done := false, result := 0x0000#16,
                     seqIdx := 0#9, phase := .busy } ∧
    exec .bbReadByte s =
      .next { s with req := 0x30000000#32, err := 0#4, done := false, result := 0x0000#16,
                     seqIdx := 0#9, phase := .busy }

/-- GPIO_WRITE16, GPIO_READ16 and GPIO_READN are accepted at IDLE for an even address (and a length 1..16), and refused
otherwise; nothing else changes. -/
def Obligations.GpioRequestsAreAcceptedOrRefused : Prop :=
  ∀ (a : Byte) (v : Half) (s : State), s.phase = .idle →
    exec (.gpioWrite16 a v) s =
      .next (if a.toNat % 2 = 0 then
          { s with req := 0x40000000#32 ||| a.setWidth 32 <<< 16 ||| v.setWidth 32, err := 0#4, done := false,
                   result := 0x0000#16, seqIdx := 0#9, phase := .busy }
        else { s with req := 0x40000000#32 ||| a.setWidth 32 <<< 16 ||| v.setWidth 32, err := 5#4, done := true }) ∧
    exec (.gpioRead16 a) s =
      .next (if a.toNat % 2 = 0 then
          { s with req := 0x50000000#32 ||| a.setWidth 32 <<< 16, err := 0#4, done := false,
                   result := 0x0000#16, seqIdx := 0#9, phase := .busy }
        else { s with req := 0x50000000#32 ||| a.setWidth 32 <<< 16, err := 5#4, done := true }) ∧
    exec (.gpioReadN a v) s =
      .next (if a.toNat % 2 = 0 ∧ 1 ≤ v.toNat ∧ v.toNat ≤ 16 then
          { s with req := 0x60000000#32 ||| a.setWidth 32 <<< 16 ||| v.setWidth 32, err := 0#4, done := false,
                   result := 0x0000#16, seqIdx := 0#9, phase := .busy }
        else { s with req := 0x60000000#32 ||| a.setWidth 32 <<< 16 ||| v.setWidth 32, err := 5#4, done := true })

/-- RTC_RESET, RTC_WRITE_STATUS and RTC_WRITE_DATE are accepted at IDLE with BUF unchanged; RTC_READ_STATUS and RTC_READ_DATE
with BUF[0..n-1] set to 0 and the other bytes unchanged; nothing else changes. -/
def Obligations.FixedTransactionsAreAccepted : Prop :=
  ∀ s : State, s.phase = .idle →
    (∀ iw ∈ [(Instr.rtcReset, 0x70600000#32), (.rtcWriteStatus, 0x71620000#32), (.rtcWriteDate, 0x77640000#32)],
      exec iw.1 s =
        .next { s with req := iw.2, err := 0#4, done := false, result := 0x0000#16, seqIdx := 0#9, phase := .busy }) ∧
    (∀ iwn ∈ [(Instr.rtcReadStatus, 0x71630000#32, 1), (.rtcReadDate, 0x77650000#32, 7)],
      ∃ b : Vector Byte 7, (∀ k : Fin 7, b[k] = if k.val < iwn.2.2 then 0x00#8 else s.buf[k]) ∧
        exec iwn.1 s =
          .next { s with req := iwn.2.1, err := 0#4, done := false, result := 0x0000#16, seqIdx := 0#9, phase := .busy,
                         buf := b })

/-- The time and alarm commands are accepted at IDLE exactly when the parameter is given and the word's n is it; otherwise,
and while the parameter is not given, they are refused. -/
def Obligations.TimeAndAlarmFollowTheirParameter : Prop :=
  ∀ (n : BitVec 4) (s : State), s.phase = .idle →
    ∀ q ∈ [(Instr.rtcWriteTime n, 0x70660000#32, s.params.nTime, false), (.rtcReadTime n, 0x70670000#32, s.params.nTime, true),
           (.rtcWriteAlarm n, 0x70680000#32, s.params.nAlarm, false), (.rtcReadAlarm n, 0x70690000#32, s.params.nAlarm, true)],
      (q.2.2.1.map Fin.val = some n.toNat →
        ∃ b : Vector Byte 7, (∀ k : Fin 7, b[k] = if q.2.2.2 = true ∧ k.val < n.toNat then 0x00#8 else s.buf[k]) ∧
          exec q.1 s =
            .next { s with req := q.2.1 ||| n.setWidth 32 <<< 24, err := 0#4, done := false, result := 0x0000#16,
                           seqIdx := 0#9, phase := .busy, buf := b }) ∧
      (q.2.2.1.map Fin.val ≠ some n.toNat →
        exec q.1 s = .next { s with req := q.2.1 ||| n.setWidth 32 <<< 24, err := 5#4, done := true })

/-- One routine: RTC_TXN with a command's byte and length does, in every state, what that command's own row does; and at IDLE
it is accepted for one of the nine commands with its DATALEN, and refused otherwise. -/
def Obligations.TransactionIsOneRoutine : Prop :=
  ∀ (c : Byte) (n : BitVec 4) (s : State),
    exec (.rtcTxn c n) s = exec (Instr.rtcTxn c n).canonical s ∧
    (s.phase = .idle → dataLen s.params c = some n.toNat →
      ∃ b : Vector Byte 7, (∀ k : Fin 7, b[k] = if c.getLsbD 0 = true ∧ k.val < n.toNat then 0x00#8 else s.buf[k]) ∧
        exec (.rtcTxn c n) s =
          .next { s with req := 0x70000000#32 ||| n.setWidth 32 <<< 24 ||| c.setWidth 32 <<< 16, err := 0#4, done := false,
                         result := 0x0000#16, seqIdx := 0#9, phase := .busy, buf := b }) ∧
    (s.phase = .idle → dataLen s.params c ≠ some n.toNat →
      exec (.rtcTxn c n) s =
        .next { s with req := 0x70000000#32 ||| n.setWidth 32 <<< 24 ||| c.setWidth 32 <<< 16, err := 5#4, done := true })

/-- A submit at IDLE is accepted exactly when `WF(word)` holds, read off the word's bits: REQ, ERR, DONE, RESULT, SEQ_IDX and
PHASE are set, and a read transaction's BUF[0..N-1] cleared; a refused word changes REQ, ERR and DONE only, and makes no
exchange. -/
def Obligations.SubmitAcceptsExactlyWellFormedWords : Prop :=
  ∀ (s : State) (w : Word) (rest : List PortOp),
    s.phase = .idle → s.resetReq = false → s.port = .present (.request w) :: rest →
    (wordWF s.params w → ∃ b : Vector Byte 7,
      step s = .next { s with port := rest, req := w, err := 0#4, done := false, result := 0x0000#16, seqIdx := 0#9,
                              phase := .busy, buf := b } ∧
      ∀ k : Fin 7, b[k] =
        if w.extractLsb' 28 4 = 0x7#4 ∧ w.getLsbD 16 = true ∧ k.val < (w.extractLsb' 24 4).toNat then 0x00#8
        else s.buf[k]) ∧
    (¬wordWF s.params w → step s = .next { s with port := rest, req := w, err := 5#4, done := true })

/-- The step runs the decoded instruction: the running request while BUSY, the first code presented at IDLE, taken from the
port. -/
def Obligations.StepRunsTheDecodedInstruction : Prop :=
  ∀ (s : State) (i : Instr), s.resetReq = false →
    (s.phase = .busy → decode (.request s.req) = .ok i → step s = exec i s) ∧
    (∀ c rest, s.phase = .idle → s.port = .present c :: rest → decode c = .ok i → step s = exec i { s with port := rest })

/-! ### The engine step: what each request does while BUSY (log 1) -/

/-- GPIO_WRITE16 makes one 16-bit write exchange and ends; a failure is raised and ends it too. The shadow follows: the value
written, or unknown after a failure. -/
def Obligations.GpioWriteMakesOneWrite : Prop :=
  ∀ (a : Byte) (v : Half) (s : State), s.phase = .busy → s.seqIdx = 0#9 → a.toNat % 2 = 0 →
    let f : List Byte := [0x09#8, 0x00#8, 0xF5#8, a >>> 1, 0x00#8, 0x00#8, 0x00#8, v.setWidth 8, (v >>> 8).setWidth 8,
      0x00#8, 0x00#8]
    let shadow (x : Option Half) : Shadow :=
      { data := if a = 0xC4#8 then x else s.shadow.data, ctrl := if a = 0xC6#8 then x else s.shadow.ctrl,
        re := if a = 0xC8#8 then x else s.shadow.re }
    (∀ rs, exchangeOutcome 1 s = .ok rs →
      exec (.gpioWrite16 a v) s =
        .next { afterExchange f 1 s with phase := .idle, done := true, seqIdx := 1#9, shadow := shadow (some v) }) ∧
    (∀ e, exchangeOutcome 1 s = .fail e →
      exec (.gpioWrite16 a v) s =
        .next { afterExchange f 1 s with phase := .idle, done := true, shadow := shadow none,
                                         err := if s.err = 0#4 then failNumber e else s.err })

/-- GPIO_READ16 makes one 16-bit read exchange; RESULT takes the two payload bytes, little-endian, the header ignored; on a
failure RESULT is unchanged. -/
def Obligations.GpioReadSetsResult : Prop :=
  ∀ (a : Byte) (s : State), s.phase = .busy → s.seqIdx = 0#9 → a.toNat % 2 = 0 →
    let f : List Byte := [0x09#8, 0x00#8, 0xF6#8, a >>> 1, 0x00#8, 0x00#8, 0x00#8, 0x02#8, 0x00#8, 0x00#8, 0x00#8]
    (∀ h0 h1 d0 d1, exchangeOutcome 4 s = .ok [h0, h1, d0, d1] →
      exec (.gpioRead16 a) s =
        .next { afterExchange f 4 s with phase := .idle, done := true, seqIdx := 1#9, result := d1 ++ d0 }) ∧
    (∀ e, exchangeOutcome 4 s = .fail e →
      exec (.gpioRead16 a) s =
        .next { afterExchange f 4 s with phase := .idle, done := true,
                                         err := if s.err = 0#4 then failNumber e else s.err })

/-- GPIO_READN makes one raw read exchange of len bytes; RBUF[0..len-1] take the payload in received order, the rest of RBUF
is unchanged; on a failure RBUF is unchanged. -/
def Obligations.GpioReadNFillsRbuf : Prop :=
  ∀ (a : Byte) (len : Half) (s : State), s.phase = .busy → s.seqIdx = 0#9 → a.toNat % 2 = 0 →
    1 ≤ len.toNat → len.toNat ≤ 16 →
    let f : List Byte := [0x09#8, 0x00#8, 0xF6#8, a >>> 1, 0x00#8, 0x00#8, 0x00#8, len.setWidth 8, 0x00#8, 0x00#8, 0x00#8]
    (∀ h0 h1 data, exchangeOutcome (len.toNat + 2) s = .ok (h0 :: h1 :: data) →
      ∃ rb : Vector Byte 16, (∀ k : Fin 16, rb[k] = if k.val < len.toNat then data.getD k.val 0x00#8 else s.rbuf[k]) ∧
        exec (.gpioReadN a len) s =
          .next { afterExchange f (len.toNat + 2) s with phase := .idle, done := true, seqIdx := 1#9, rbuf := rb }) ∧
    (∀ e, exchangeOutcome (len.toNat + 2) s = .fail e →
      exec (.gpioReadN a len) s =
        .next { afterExchange f (len.toNat + 2) s with phase := .idle, done := true,
                                                       err := if s.err = 0#4 then failNumber e else s.err })

/-- BB_SEND_CMD and BB_WRITE_BYTE at access k = 4i + m make one Data write of the group's value for bit 7 - i (command) or i
(data); the last access ends the request, a failure ends it at that access with no Close. -/
def Obligations.BitBangWriteSteps : Prop :=
  ∀ (x : Byte) (s : State) (i m : Nat), s.phase = .busy → i < 8 → m < 4 → s.seqIdx = BitVec.ofNat 9 (4 * i + m) →
    ∀ q ∈ [(Instr.bbSendCmd x, x.getLsbD (7 - i)), (.bbWriteByte x, x.getLsbD i)],
      let v : Byte := BitVec.ofNat 8 (4 + 2 * q.2.toNat + if m = 3 then 1 else 0)
      let f : List Byte := [0x09#8, 0x00#8, 0xF5#8, 0x62#8, 0x00#8, 0x00#8, 0x00#8, v, 0x00#8, 0x00#8, 0x00#8]
      (∀ rs, exchangeOutcome 1 s = .ok rs →
        exec q.1 s =
          .next { afterExchange f 1 s with
            seqIdx := BitVec.ofNat 9 (4 * i + m + 1), shadow := { s.shadow with data := some (v.setWidth 16) }
            phase := if 4 * i + m = 31 then .idle else .busy, done := if 4 * i + m = 31 then true else s.done }) ∧
      (∀ e, exchangeOutcome 1 s = .fail e →
        exec q.1 s =
          .next { afterExchange f 1 s with
            shadow := { s.shadow with data := none }, phase := .idle, done := true
            err := if s.err = 0#4 then failNumber e else s.err })

/-- BB_READ_BYTE at access 7i + m: five Data writes of 4, one of 5, then the sample, which puts bit 1 of the read value into bit
i of RESULT and leaves its other bits; the last access ends the request, a failure ends it at that access. -/
def Obligations.BitBangReadSteps : Prop :=
  ∀ (s : State) (i m : Nat), s.phase = .busy → i < 8 → m < 7 → s.seqIdx = BitVec.ofNat 9 (7 * i + m) →
    let v : Byte := if m < 5 then 0x04#8 else 0x05#8
    let f : List Byte := [0x09#8, 0x00#8, 0xF5#8, 0x62#8, 0x00#8, 0x00#8, 0x00#8, v, 0x00#8, 0x00#8, 0x00#8]
    let g : List Byte := [0x09#8, 0x00#8, 0xF6#8, 0x62#8, 0x00#8, 0x00#8, 0x00#8, 0x02#8, 0x00#8, 0x00#8, 0x00#8]
    (m < 6 → ∀ rs, exchangeOutcome 1 s = .ok rs →
      exec .bbReadByte s =
        .next { afterExchange f 1 s with
          seqIdx := BitVec.ofNat 9 (7 * i + m + 1), shadow := { s.shadow with data := some (v.setWidth 16) } }) ∧
    (m < 6 → ∀ e, exchangeOutcome 1 s = .fail e →
      exec .bbReadByte s =
        .next { afterExchange f 1 s with
          shadow := { s.shadow with data := none }, phase := .idle, done := true
          err := if s.err = 0#4 then failNumber e else s.err }) ∧
    (m = 6 → ∀ h0 h1 d0 d1, exchangeOutcome 4 s = .ok [h0, h1, d0, d1] →
      ∃ r : Half, (∀ b : Nat, r.getLsbD b = if b = i then d0.getLsbD 1 else s.result.getLsbD b) ∧
        exec .bbReadByte s =
          .next { afterExchange g 4 s with
            seqIdx := BitVec.ofNat 9 (7 * i + 7), result := r
            phase := if i = 7 then .idle else .busy, done := if i = 7 then true else s.done }) ∧
    (m = 6 → ∀ e, exchangeOutcome 4 s = .fail e →
      exec .bbReadByte s =
        .next { afterExchange g 4 s with
          phase := .idle, done := true, err := if s.err = 0#4 then failNumber e else s.err })

/-- Every request instruction (BB_SEND_CMD, BB_WRITE_BYTE, BB_READ_BYTE, GPIO_WRITE16, GPIO_READ16, GPIO_READN, RTC_TXN,
RTC_RESET, RTC_WRITE_STATUS, RTC_READ_STATUS, RTC_WRITE_DATE, RTC_READ_DATE, RTC_WRITE_TIME, RTC_READ_TIME, RTC_WRITE_ALARM,
RTC_READ_ALARM), well-formed and BUSY at one of its accesses, answers a next state: exactly that access's exchange is
recorded, and when it completes the index advances and the request ends at SEQ_LEN. What no engine step writes is unchanged. What
the exchange leaves of the link rests on the model's choices: the answers are a list given from outside (log 4), surplus bytes stay
pending, and a failed exchange too has consumed the bytes it received (log 5, DESIGN CHOICE, unsafe). -/
def Obligations.BusyStepMakesExactlyOneExchange : Prop :=
  ∀ (i : Instr) (s : State) (p : Plan) (acc : Access),
    s.phase = .busy → planOf i s = some p → p.ok = true → p.seq[s.seqIdx.toNat]? = some acc →
    ∃ t, exec i s = .next t ∧
      t.history = s.history ++ [{ frame := accessFrame acc, count := accessCount acc,
                                  outcome := exchangeOutcome (accessCount acc) s }] ∧
      t.answers = s.answers.tail ∧ t.rx = (available s).drop (accessCount acc) ∧
      t.req = s.req ∧ t.port = s.port ∧ t.params = s.params ∧ t.codecRet = s.codecRet ∧ t.resetReq = s.resetReq ∧
      (∀ rs, exchangeOutcome (accessCount acc) s = .ok rs →
        t.seqIdx.toNat = s.seqIdx.toNat + 1 ∧ t.err = s.err ∧
        (s.seqIdx.toNat + 1 = p.seq.length → t.phase = .idle ∧ t.done = true) ∧
        (s.seqIdx.toNat + 1 ≠ p.seq.length → t.phase = .busy ∧ t.done = s.done))

/-- A link error in the Open, Command or Data part of a transaction raises the error and jumps to the first Close access; the
engine stays BUSY: so far R266. When the link then answers the five Close accesses by exactly their responses, the request ends
with the first error, and the record has gained the failed exchange and the Close only. This second part rests on the model's
choices: the answers are a list given from outside (log 4), and the failed exchange has consumed the bytes it received, so that
each Close access gets exactly its own answer (log 5, DESIGN CHOICE, unsafe). -/
def Obligations.ErrorBeforeCloseJumpsToClose : Prop :=
  ∀ (i : Instr) (s : State) (p : Plan) (acc : Access) (e : LinkFail) (ci : Nat),
    isTransaction i = true → s.phase = .busy → planOf i s = some p → p.ok = true →
    p.seq[s.seqIdx.toNat]? = some acc → exchangeOutcome (accessCount acc) s = .fail e →
    p.close = some ci → s.seqIdx.toNat < ci →
    (∃ t, exec i s = .next t ∧ t.phase = .busy ∧ t.seqIdx.toNat = ci ∧ t.done = s.done ∧
      t.err = (if s.err = 0#4 then failNumber e else s.err) ∧ t.buf = s.buf ∧ t.rbuf = s.rbuf ∧ t.result = s.result) ∧
    (∀ (a : LinkAnswer) (as later : List LinkAnswer), s.resetReq = false → decode (.request s.req) = .ok i →
      s.answers = a :: (as ++ later) → AnswersFit (p.seq.drop ci) as →
      ∃ t, Host.Core.run Sys2Proof.core 6 s = .next t ∧ t.phase = .idle ∧ t.done = true ∧
        t.err = (if s.err = 0#4 then failNumber e else s.err) ∧ t.seqIdx.toNat = p.seq.length ∧
        t.history = s.history ++ { frame := accessFrame acc, count := accessCount acc, outcome := .fail e } ::
          recordsOf (p.seq.drop ci) as)

/-- A link error in Close ends the transaction at once; the remaining Close accesses are not made. -/
def Obligations.ErrorInCloseEndsTheRequest : Prop :=
  ∀ (i : Instr) (s : State) (p : Plan) (acc : Access) (e : LinkFail) (ci : Nat),
    isTransaction i = true → s.phase = .busy → planOf i s = some p → p.ok = true →
    p.seq[s.seqIdx.toNat]? = some acc → exchangeOutcome (accessCount acc) s = .fail e →
    p.close = some ci → ci ≤ s.seqIdx.toNat →
    ∃ t, exec i s = .next t ∧ t.phase = .idle ∧ t.done = true ∧ t.seqIdx = s.seqIdx ∧
      t.err = (if s.err = 0#4 then failNumber e else s.err) ∧ t.buf = s.buf ∧ t.rbuf = s.rbuf ∧ t.result = s.result

/-- A link error in BB_SEND_CMD, BB_WRITE_BYTE, BB_READ_BYTE, GPIO_WRITE16, GPIO_READ16 or GPIO_READN ends the request at the
failing access, with no Close. -/
def Obligations.ErrorOutsideTransactionsEndsTheRequest : Prop :=
  ∀ (i : Instr) (s : State) (p : Plan) (acc : Access) (e : LinkFail),
    isTransaction i = false → s.phase = .busy → planOf i s = some p → p.ok = true →
    p.seq[s.seqIdx.toNat]? = some acc → exchangeOutcome (accessCount acc) s = .fail e →
    ∃ t, exec i s = .next t ∧ t.phase = .idle ∧ t.done = true ∧ t.seqIdx = s.seqIdx ∧
      t.err = (if s.err = 0#4 then failNumber e else s.err) ∧ t.buf = s.buf ∧ t.rbuf = s.rbuf ∧ t.result = s.result

/-- A transaction's step writes no RESULT and no RBUF; of BUF only the sampled bit of the access's own byte, and that only when
the exchange completes; of the shadow only the register of a write access: the value written, or unknown after a failure. -/
def Obligations.TransactionStepsTouchOnlyBuf : Prop :=
  ∀ (i : Instr) (s t : State) (p : Plan) (acc : Access),
    isTransaction i = true → s.phase = .busy → planOf i s = some p → p.ok = true →
    p.seq[s.seqIdx.toNat]? = some acc → exec i s = .next t →
    t.result = s.result ∧ t.rbuf = s.rbuf ∧
    (∀ (j : Fin 7) (b : Fin 8) (h0 h1 d0 d1 : Byte), acc = .gpioRead 0xC4#8 (.sample (.buf j) b) →
      exchangeOutcome 4 s = .ok [h0, h1, d0, d1] →
      ∀ (k : Fin 7) (m : Nat), t.buf[k].getLsbD m = if k = j ∧ m = b.val then d0.getLsbD 1 else s.buf[k].getLsbD m) ∧
    ((∀ j b, acc ≠ .gpioRead 0xC4#8 (.sample (.buf j) b)) → t.buf = s.buf) ∧
    (∀ e, exchangeOutcome (accessCount acc) s = .fail e → t.buf = s.buf) ∧
    (p.clears = 0 → t.buf = s.buf) ∧
    (∀ a act, acc = .gpioRead a act → t.shadow = s.shadow) ∧
    (∀ (a : Byte) (v : Half) (x : Option Half), acc = .gpioWrite a v →
      x = (match exchangeOutcome 1 s with | .ok _ => some v | .fail _ => none) →
      t.shadow = { data := if a = 0xC4#8 then x else s.shadow.data, ctrl := if a = 0xC6#8 then x else s.shadow.ctrl,
                   re := if a = 0xC8#8 then x else s.shadow.re })

/-! ### Runs -/

/-- A well-formed request submitted at IDLE, with a link that answers every access by exactly its response: after one step for
the acceptance and one for each access (log 1) the engine is IDLE with DONE and no error, the index is at SEQ_LEN, and the observation
record has gained exactly the frames of `Seq`, in order. -/
def Obligations.RequestRunsToCompletion : Prop :=
  ∀ (s : State) (w : Word) (rest : List PortOp) (i : Instr) (p : Plan) (as later : List LinkAnswer),
    s.phase = .idle → s.resetReq = false → s.port = .present (.request w) :: rest → s.rx = [] →
    decode (.request w) = .ok i → planOf i s = some p → p.ok = true →
    s.answers = as ++ later → AnswersFit p.seq as →
    ∃ t, Host.Core.run Sys2Proof.core (1 + p.seq.length) s = .next t ∧
      t.phase = .idle ∧ t.done = true ∧ t.err = 0#4 ∧ t.req = w ∧ t.seqIdx.toNat = p.seq.length ∧
      t.history = s.history ++ recordsOf p.seq as ∧ t.answers = later ∧ t.rx = [] ∧ t.port = rest ∧ t.params = s.params

/-- BB_READ_BYTE run to its end: bit i of RESULT is the SIO bit of the i-th read, the earliest the lowest; the high byte is
0. The 57 steps are the submission, which the model counts as a step (log 1), and the 56 accesses. -/
def Obligations.ReadByteRunAssemblesLsbFirst : Prop :=
  ∀ (s : State) (rest : List PortOp) (as later : List LinkAnswer),
    s.phase = .idle → s.resetReq = false → s.port = .present (.request 0x30000000#32) :: rest → s.rx = [] →
    s.answers = as ++ later → AnswersFit (readByteSeq .result) as →
    ∃ t, Host.Core.run Sys2Proof.core 57 s = .next t ∧ t.phase = .idle ∧ t.done = true ∧ t.err = 0#4 ∧
      (∀ i : Nat, i < 8 → ∀ a, as[7 * i + 6]? = some a → t.result.getLsbD i = answerBit a) ∧
      (∀ i : Nat, 8 ≤ i → t.result.getLsbD i = false) ∧ t.buf = s.buf ∧ t.rbuf = s.rbuf

/-- A read transaction run to its end: bit i of BUF[j] is the SIO bit of its own read, the first byte read in BUF[0]; the bytes
of BUF from n on, RESULT (cleared by the acceptance) and RBUF are as the rules leave them. The 43 + 56n steps are the submission,
which the model counts as a step (log 1), and the 42 + 56n accesses. -/
def Obligations.ReadTransactionRunFillsBuf : Prop :=
  ∀ (s : State) (c : Byte) (n : BitVec 4) (rest : List PortOp) (as later : List LinkAnswer),
    s.phase = .idle → s.resetReq = false → s.rx = [] → c.getLsbD 0 = true → dataLen s.params c = some n.toNat →
    s.port = .present (.request (0x70000000#32 ||| n.setWidth 32 <<< 24 ||| c.setWidth 32 <<< 16)) :: rest →
    s.answers = as ++ later → AnswersFit (txnSeq c n.toNat s.buf) as →
    ∃ t, Host.Core.run Sys2Proof.core (43 + 56 * n.toNat) s = .next t ∧ t.phase = .idle ∧ t.done = true ∧ t.err = 0#4 ∧
      (∀ (j : Fin 7) (i : Nat), j.val < n.toNat → i < 8 → ∀ a, as[37 + 56 * j.val + 7 * i + 6]? = some a →
        t.buf[j].getLsbD i = answerBit a) ∧
      (∀ j : Fin 7, n.toNat ≤ j.val → t.buf[j] = s.buf[j]) ∧ t.result = 0x0000#16 ∧ t.rbuf = s.rbuf

/-- Where a transaction leaves the target's lines: after a run with no failed exchange the Data shadow is 5, Read-Enable is 0, and
Control is 5 after a read command and 7 after any other. The 1 + SEQ_LEN steps are the submission, which the model counts as a
step (log 1), and the accesses. -/
def Obligations.TransactionLeavesTheLines : Prop :=
  ∀ (s : State) (w : Word) (rest : List PortOp) (i : Instr) (p : Plan) (as later : List LinkAnswer),
    s.phase = .idle → s.resetReq = false → s.port = .present (.request w) :: rest → s.rx = [] →
    decode (.request w) = .ok i → isTransaction i = true → planOf i s = some p → p.ok = true →
    s.answers = as ++ later → AnswersFit p.seq as →
    ∃ t, Host.Core.run Sys2Proof.core (1 + p.seq.length) s = .next t ∧
      t.shadow = { data := some 0x0005#16, ctrl := some (if w.getLsbD 16 = true then 0x0005#16 else 0x0007#16),
                   re := some 0x0000#16 }

/-- Every running request ends, whatever the link answers: within 434 steps the engine is IDLE with DONE. -/
def Obligations.EveryRequestEnds : Prop :=
  ∀ s : State, EngineInv s → s.phase = .busy → s.resetReq = false →
    ∃ k t, k ≤ 434 ∧ Host.Core.run Sys2Proof.core k s = .next t ∧ t.phase = .idle ∧ t.done = true

/-! ### The link -/

/-- The outcome of an exchange by what arrives, the surplus that stays pending, and the entry it leaves in the record; a 1-byte
response is never short. -/
def Obligations.ExchangeOutcomes : Prop :=
  ∀ (f : List Byte) (r : Nat) (s : State),
    let got := s.rx ++ (nextAnswer s).bytes
    (r ≤ got.length → exchangeOutcome r s = .ok (got.take r)) ∧
    (got.length < r → (nextAnswer s).ending = .timeout → exchangeOutcome r s = .fail .timeout) ∧
    (0 < r → got = [] → (nextAnswer s).ending = .closed → exchangeOutcome r s = .fail .closed) ∧
    (1 ≤ got.length → got.length < r → (nextAnswer s).ending = .closed → exchangeOutcome r s = .fail .short) ∧
    exchangeOutcome 1 s ≠ .fail .short ∧
    (afterExchange f r s).rx = got.drop r ∧
    (afterExchange f r s).history = s.history ++ [{ frame := f, count := r, outcome := exchangeOutcome r s }]

/-! ### The frame instructions -/

/-- FR_WRITE_ROM and FR_WRITE_RAM make one exchange of their frame and wait for 1 byte; the caller gets nothing or the link's
error; no engine register changes. A 2-byte ROM write to word 0x62, 0x63 or 0x64 is a GPIO write exchange of that register
(DEDUCED from R120, log 12): it sets the register's shadow, or makes it unknown if it fails. Nothing else changes a shadow (R36): not
a ROM write of another length or to another word, and no RAM write. -/
def Obligations.FrameWritesMakeOneExchange : Prop :=
  ∀ (addr : Word) (payload : List Byte) (s : State), payload.length ≤ 65528 →
    let f (op : Byte) : List Byte :=
      [BitVec.ofNat 8 (payload.length + 7), BitVec.ofNat 8 ((payload.length + 7) / 256), op, addr.extractLsb' 0 8,
       addr.extractLsb' 8 8, addr.extractLsb' 16 8, addr.extractLsb' 24 8] ++ payload ++ [0x00#8, 0x00#8]
    let ret : CodecReturn := match exchangeOutcome 1 s with
      | .ok _ => .bytes []
      | .fail e => .error (failErr e)
    exec (.frWriteRam addr payload) s = .next { afterExchange (f 0xF7#8) 1 s with codecRet := ret } ∧
    (∃ sh, exec (.frWriteRom addr payload) s = .next { afterExchange (f 0xF5#8) 1 s with codecRet := ret, shadow := sh } ∧
      ∀ q ∈ [((0x62 : Nat), s.shadow.data, sh.data), (0x63, s.shadow.ctrl, sh.ctrl), (0x64, s.shadow.re, sh.re)],
        (addr.toNat = q.1 → ∀ lo hi, payload = [lo, hi] →
          (∀ rs, exchangeOutcome 1 s = .ok rs → q.2.2 = some (hi ++ lo)) ∧
          (∀ e, exchangeOutcome 1 s = .fail e → q.2.2 = none)) ∧
        (addr.toNat ≠ q.1 ∨ payload.length ≠ 2 → q.2.2 = q.2.1))

/-- FR_READ_ROM and FR_READ_RAM make one exchange of their frame and wait for len + 2 bytes; the caller gets the bytes after the
header, or the link's error; nothing else changes, and PROTOCOL never arises. -/
def Obligations.FrameReadsMakeOneExchange : Prop :=
  ∀ (addr : Word) (len : Half) (s : State),
    let f (op : Byte) : List Byte :=
      [0x09#8, 0x00#8, op, addr.extractLsb' 0 8, addr.extractLsb' 8 8, addr.extractLsb' 16 8, addr.extractLsb' 24 8,
       len.setWidth 8, (len >>> 8).setWidth 8, 0x00#8, 0x00#8]
    let ret : CodecReturn := match exchangeOutcome (len.toNat + 2) s with
      | .ok rs => .bytes (rs.drop 2)
      | .fail e => .error (failErr e)
    exec (.frReadRom addr len) s = .next { afterExchange (f 0xF6#8) (len.toNat + 2) s with codecRet := ret } ∧
    exec (.frReadRam addr len) s = .next { afterExchange (f 0xF8#8) (len.toNat + 2) s with codecRet := ret }

/-- A write payload that LENGTH cannot count is refused by `Encode`: nothing is sent. -/
def Obligations.OversizedPayloadsAreRefused : Prop :=
  ∀ (addr : Word) (payload : List Byte) (s : State), 65528 < payload.length →
    exec (.frWriteRom addr payload) s = .next { s with codecRet := .error .refused } ∧
    exec (.frWriteRam addr payload) s = .next { s with codecRet := .error .refused }

/-! ### The client port, status, reset -/

/-- While BUSY the port is held: the step leaves it as it is, and what is held has no effect on the step. -/
def Obligations.PortIsHeldWhileBusy : Prop :=
  ∀ (s t : State) (q : List PortOp), s.phase = .busy → s.resetReq = false → step s = .next t →
    t.port = s.port ∧ step { s with port := q } = .next { t with port := q }

/-- At IDLE a `write_buf` writes its byte of BUF and nothing else; with nothing presented the engine waits (the waiting step is
the model's, log 7). -/
def Obligations.PortOperationsAtIdle : Prop :=
  ∀ s : State, s.phase = .idle → s.resetReq = false →
    (∀ (j : Fin 7) (b : Byte) (rest : List PortOp), s.port = .writeBuf j b :: rest →
      ∃ v : Vector Byte 7, step s = .next { s with port := rest, buf := v } ∧
        ∀ k : Fin 7, v[k] = if k = j then b else s.buf[k]) ∧
    (s.port = [] → step s = .next s)

/-- Reset, in any phase: every engine register takes its reset value, STATUS reads 0, no exchange is made, and the shadow is
unknown. BUF and RBUF are not stated (unspecified). A client whose engine resets has no cached snapshot left (R38, R248; that this
holds of a reset during a run is the model's inference, DEDUCED, log 13). -/
def Obligations.ResetPutsTheResetValues : Prop :=
  ∀ s : State, s.resetReq = true →
    ∃ t, step s = .next t ∧ t.phase = .idle ∧ t.req = 0x00000000#32 ∧ t.seqIdx = 0#9 ∧ t.err = 0#4 ∧ t.done = false ∧
      t.result = 0x0000#16 ∧ readStatus t = 0x00#8 ∧ t.history = s.history ∧ t.answers = s.answers ∧
      t.shadow = { data := none, ctrl := none, re := none } ∧ t.resetReq = false ∧
      ∀ c : ClientState, c.engine = s → clientStep c = some { engine := t, cache := none }

/-- The reset state has the reset values that the spec gives. -/
def Obligations.ResetStateValues : Prop :=
  State.reset.phase = .idle ∧ State.reset.req = 0x00000000#32 ∧ State.reset.seqIdx = 0#9 ∧ State.reset.err = 0#4 ∧
    State.reset.done = false ∧ State.reset.result = 0x0000#16 ∧ readStatus State.reset = 0x00#8

/-- The STATUS view: bit 0 BUSY, bit 1 DONE, bits 3:2 zero, bits 7:4 ERR; it reads 0x00 after reset. -/
def Obligations.StatusLayout : Prop :=
  (∀ s : State,
    ((readStatus s).getLsbD 0 = true ↔ s.phase = .busy) ∧ (readStatus s).getLsbD 1 = s.done ∧
      (readStatus s).extractLsb' 2 2 = 0#2 ∧ (readStatus s).extractLsb' 4 4 = s.err) ∧
  readStatus State.reset = 0x00#8

/-! ### Invariants -/

/-- The engine's invariant holds at reset. -/
def Obligations.EngineInvariantAtReset : Prop := EngineInv State.reset

/-- Every step keeps the engine's invariant. -/
def Obligations.EngineInvariantIsKept : Prop :=
  ∀ s t : State, EngineInv s → step s = .next t → EngineInv t

/-- From a state that meets the invariant the machine never stops: every step answers a next state. -/
def Obligations.NoStopUnderTheInvariant : Prop :=
  ∀ s : State, EngineInv s → ∃ t, step s = .next t

/-- While a request runs and goes on running, REQ and its sequence stay the same, and the index rises. -/
def Obligations.RunningRequestKeepsItsSequence : Prop :=
  ∀ (s t : State) (i : Instr) (p : Plan), s.phase = .busy → s.resetReq = false →
    decode (.request s.req) = .ok i → planOf i s = some p → step s = .next t →
    t.req = s.req ∧ s.seqIdx.toNat ≤ t.seqIdx.toNat ∧
    (t.phase = .busy → s.seqIdx.toNat < t.seqIdx.toNat ∧ planOf i t = some p)

/-- What a running request sends does not depend on the link: with any other answers and pending bytes, the step sends the same
frame and waits for the same number of bytes. -/
def Obligations.FramesDoNotDependOnTheLink : Prop :=
  ∀ (s t : State) (as : List LinkAnswer) (bs : List Byte) (d : Nat), s.phase = .busy → s.resetReq = false → step s = .next t →
    ∃ t' r r', step { s with answers := as, rx := bs, draws := d } = .next t' ∧
      t.history = s.history ++ [r] ∧ t'.history = s.history ++ [r'] ∧ r'.frame = r.frame ∧ r'.count = r.count

/-- The observation record only grows, by at most one exchange a step, and by exactly one in a step of a running request. -/
def Obligations.EachStepRecordsAtMostOneExchange : Prop :=
  ∀ s t : State, step s = .next t →
    (t.history = s.history ∨ ∃ r, t.history = s.history ++ [r]) ∧
    (s.phase = .busy → s.resetReq = false → ∃ r, t.history = s.history ++ [r])

/-- Every step keeps the observation record in order: each frame sent is one that `Encode` builds, the receive count is the
frame's own response length, a completed exchange has exactly that many bytes, and a short read waited for at least 2. -/
def Obligations.RecordedExchangesAreWellFormed : Prop :=
  ∀ s t : State, HistoryOk s → step s = .next t → HistoryOk t

/-! ### Client software (outside the block) -/

/-- BCD round trips, the PM flag of the hours from 12 on, and the rejection of a nibble above 9. -/
def Obligations.BcdRoundTrips : Prop :=
  (∀ v : Int, 0 ≤ v → v ≤ 99 → ∃ b, bcdEnc v = some b ∧ bcdDec b = some v.toNat) ∧
  (∀ v : Int, v < 0 ∨ 99 < v → bcdEnc v = none) ∧
  (∀ h : Int, 0 ≤ h → h ≤ 23 → ∃ b, hourEnc h = some b ∧ hourDec b = some h.toNat ∧ (b.getLsbD 7 = true ↔ 12 ≤ h)) ∧
  (∀ b : Byte, 9 < b.toNat % 16 ∨ 9 < b.toNat / 16 → bcdDec b = none)

/-- Writing a date and time with a field out of range raises DATA naming the fields, and touches nothing: no buffer write, no
request, no exchange. -/
def Obligations.BadDatesTouchNothing : Prop :=
  ∀ (d : DateTime) (c : ClientState),
    (∃ f ∈ dateFields, d.field f < f.least ∨ f.greatest < d.field f) →
    ∃ bad, bad ≠ [] ∧ (∀ f, f ∈ bad ↔ d.field f < f.least ∨ f.greatest < d.field f) ∧
      writeDateTime d c = (.error (.data bad), c)

/-- A persisted snapshot has 16 bytes, and restoring it gives back the decoded date, the status and the timestamp; a buffer of
another length is DATA. -/
def Obligations.SnapshotRoundTrip : Prop :=
  (∀ (raw : Vector Byte 7) (st : Byte) (t : BitVec 64),
    (persistSnapshot raw st t).length = 16 ∧
    restoreSnapshot (persistSnapshot raw st t) =
      .ok { fields := decodeDate raw, reported := reportedFields raw, status := st, time := t.toNat }) ∧
  (∀ bs : List Byte, bs.length ≠ 16 → restoreSnapshot bs = .error .malformedSnapshot)
end

