-- ==== Sys2Proof/Laws/Client.lean ====
section
/-! SUPPORT. What a step of the client's engine can do, said once. -/

namespace Sys2Proof.Machine

/-- A client step is a step of its engine; CACHE is emptied exactly when that step is a reset, else kept (spec R38, R248). -/
theorem clientStep_eq_some {c c' : ClientState} :
    clientStep c = some c' ↔
      step c.engine = .next c'.engine ∧ c'.cache = if c.engine.resetReq then none else c.cache := by
  obtain ⟨e, k⟩ := c'
  unfold clientStep
  cases step c.engine <;> simp only [Option.some.injEq, ClientState.mk.injEq, Host.Outcome.next.injEq, reduceCtorEq, false_and,
    eq_comm]

end Sys2Proof.Machine
end

