-- ==== Sys2Proof/Laws/Codec.lean ====
section
/-! SUPPORT. Small lemmas of the frame codec: lengths, and little-endian numbers. -/

namespace Sys2Proof.Machine

@[simp] theorem le_length (n v : Nat) : (le n v).length = n := by simp [le]

/-- `le` byte by byte: the low byte, then the rest of the number. -/
theorem le_succ (n v : Nat) : le (n + 1) v = BitVec.ofNat 8 v :: le n (v / 256) := by
  have h : ∀ k, v >>> (8 * (k + 1)) = (v / 256) >>> (8 * k) := fun k => by
    rw [show 8 * (k + 1) = 8 + 8 * k by ring, Nat.shiftRight_add, Nat.shiftRight_eq_div_pow v 8]
  simp [le, List.range_succ_eq_map, Function.comp_def, h]

@[simp] theorem le_zero (v : Nat) : le 0 v = [] := rfl

@[simp] theorem fromLe_nil : fromLe [] = 0 := rfl

@[simp] theorem fromLe_cons (b : Byte) (bs : List Byte) : fromLe (b :: bs) = b.toNat + 256 * fromLe bs := rfl

/-- Reading back N little-endian bytes gives the number modulo 256^N (spec R12). -/
theorem fromLe_le (n v : Nat) : fromLe (le n v) = v % 256 ^ n := by
  induction n generalizing v with
  | zero => simp [Nat.mod_one]
  | succ n ih =>
    rw [le_succ, fromLe_cons, ih, BitVec.toNat_ofNat, pow_succ' 256 n, Nat.mod_mul]

/-- A little-endian number fits its bytes (spec R12). -/
theorem fromLe_lt (bs : List Byte) : fromLe bs < 256 ^ bs.length := by
  induction bs with
  | nil => simp
  | cons b bs ih =>
    have hb : b.toNat < 256 := b.isLt
    rw [fromLe_cons, List.length_cons, pow_succ']
    omega

/-- Writing back the number of a byte list gives the list (spec R12). -/
theorem le_fromLe (bs : List Byte) : le bs.length (fromLe bs) = bs := by
  induction bs with
  | nil => rfl
  | cons b bs ih =>
    have hb : b.toNat < 256 := b.isLt
    rw [List.length_cons, le_succ, fromLe_cons]
    have h1 : BitVec.ofNat 8 (b.toNat + 256 * fromLe bs) = b := by
      apply BitVec.eq_of_toNat_eq
      rw [BitVec.toNat_ofNat]
      omega
    have h2 : (b.toNat + 256 * fromLe bs) / 256 = fromLe bs := by omega
    rw [h1, h2, ih]

/-- The seven leading bytes of a frame, then payload and trailer (spec R80). -/
theorem frameBytes_eq (op : Byte) (addr : Nat) (payload : List Byte) :
    frameBytes op addr payload =
      le 2 (payload.length + 7) ++ op :: (le 4 addr ++ (payload ++ [0x00#8, 0x00#8])) := by
  simp [frameBytes, show 1 + 4 + payload.length + 2 = payload.length + 7 by omega]

@[simp] theorem frameBytes_length (op : Byte) (addr : Nat) (payload : List Byte) :
    (frameBytes op addr payload).length = 9 + payload.length := by
  simp [frameBytes_eq]; omega

end Sys2Proof.Machine
end

