-- ==== Sys2Proof/Laws/State.lean ====
section
/-! SUPPORT. The small lemmas of State: one per field per named update, each true by rfl. -/

namespace Sys2Proof.Machine

/-! ### afterExchange -/

@[simp] theorem afterExchange_phase (f : List Byte) (r : Nat) (s : State) : (afterExchange f r s).phase = s.phase := rfl
@[simp] theorem afterExchange_req (f : List Byte) (r : Nat) (s : State) : (afterExchange f r s).req = s.req := rfl
@[simp] theorem afterExchange_seqIdx (f : List Byte) (r : Nat) (s : State) : (afterExchange f r s).seqIdx = s.seqIdx := rfl
@[simp] theorem afterExchange_err (f : List Byte) (r : Nat) (s : State) : (afterExchange f r s).err = s.err := rfl
@[simp] theorem afterExchange_done (f : List Byte) (r : Nat) (s : State) : (afterExchange f r s).done = s.done := rfl
@[simp] theorem afterExchange_result (f : List Byte) (r : Nat) (s : State) : (afterExchange f r s).result = s.result := rfl
@[simp] theorem afterExchange_buf (f : List Byte) (r : Nat) (s : State) : (afterExchange f r s).buf = s.buf := rfl
@[simp] theorem afterExchange_rbuf (f : List Byte) (r : Nat) (s : State) : (afterExchange f r s).rbuf = s.rbuf := rfl
@[simp] theorem afterExchange_shadow (f : List Byte) (r : Nat) (s : State) : (afterExchange f r s).shadow = s.shadow := rfl
@[simp] theorem afterExchange_history (f : List Byte) (r : Nat) (s : State) : (afterExchange f r s).history = s.history ++ [{ frame := f, count := r, outcome := exchangeOutcome r s }] := rfl
@[simp] theorem afterExchange_rx (f : List Byte) (r : Nat) (s : State) : (afterExchange f r s).rx = (available s).drop r := rfl
@[simp] theorem afterExchange_answers (f : List Byte) (r : Nat) (s : State) : (afterExchange f r s).answers = s.answers.tail := rfl
@[simp] theorem afterExchange_draws (f : List Byte) (r : Nat) (s : State) : (afterExchange f r s).draws = drawsAfterAnswer s := rfl
@[simp] theorem afterExchange_port (f : List Byte) (r : Nat) (s : State) : (afterExchange f r s).port = s.port := rfl
@[simp] theorem afterExchange_resetReq (f : List Byte) (r : Nat) (s : State) : (afterExchange f r s).resetReq = s.resetReq := rfl
@[simp] theorem afterExchange_codecRet (f : List Byte) (r : Nat) (s : State) : (afterExchange f r s).codecRet = s.codecRet := rfl
@[simp] theorem afterExchange_params (f : List Byte) (r : Nat) (s : State) : (afterExchange f r s).params = s.params := rfl

/-! ### accept -/

@[simp] theorem accept_phase (p : Plan) (s : State) : (accept p s).phase = .busy := rfl
@[simp] theorem accept_req (p : Plan) (s : State) : (accept p s).req = p.word := rfl
@[simp] theorem accept_seqIdx (p : Plan) (s : State) : (accept p s).seqIdx = 0#9 := rfl
@[simp] theorem accept_err (p : Plan) (s : State) : (accept p s).err = 0#4 := rfl
@[simp] theorem accept_done (p : Plan) (s : State) : (accept p s).done = false := rfl
@[simp] theorem accept_result (p : Plan) (s : State) : (accept p s).result = 0x0000#16 := rfl
@[simp] theorem accept_buf (p : Plan) (s : State) : (accept p s).buf = clearBuf p.clears s.buf := rfl
@[simp] theorem accept_rbuf (p : Plan) (s : State) : (accept p s).rbuf = s.rbuf := rfl
@[simp] theorem accept_shadow (p : Plan) (s : State) : (accept p s).shadow = s.shadow := rfl
@[simp] theorem accept_history (p : Plan) (s : State) : (accept p s).history = s.history := rfl
@[simp] theorem accept_rx (p : Plan) (s : State) : (accept p s).rx = s.rx := rfl
@[simp] theorem accept_answers (p : Plan) (s : State) : (accept p s).answers = s.answers := rfl
@[simp] theorem accept_draws (p : Plan) (s : State) : (accept p s).draws = s.draws := rfl
@[simp] theorem accept_port (p : Plan) (s : State) : (accept p s).port = s.port := rfl
@[simp] theorem accept_resetReq (p : Plan) (s : State) : (accept p s).resetReq = s.resetReq := rfl
@[simp] theorem accept_codecRet (p : Plan) (s : State) : (accept p s).codecRet = s.codecRet := rfl
@[simp] theorem accept_params (p : Plan) (s : State) : (accept p s).params = s.params := rfl

/-! ### refuseWord -/

@[simp] theorem refuseWord_phase (w : Word) (s : State) : (refuseWord w s).phase = s.phase := rfl
@[simp] theorem refuseWord_req (w : Word) (s : State) : (refuseWord w s).req = w := rfl
@[simp] theorem refuseWord_seqIdx (w : Word) (s : State) : (refuseWord w s).seqIdx = s.seqIdx := rfl
@[simp] theorem refuseWord_err (w : Word) (s : State) : (refuseWord w s).err = 5#4 := rfl
@[simp] theorem refuseWord_done (w : Word) (s : State) : (refuseWord w s).done = true := rfl
@[simp] theorem refuseWord_result (w : Word) (s : State) : (refuseWord w s).result = s.result := rfl
@[simp] theorem refuseWord_buf (w : Word) (s : State) : (refuseWord w s).buf = s.buf := rfl
@[simp] theorem refuseWord_rbuf (w : Word) (s : State) : (refuseWord w s).rbuf = s.rbuf := rfl
@[simp] theorem refuseWord_shadow (w : Word) (s : State) : (refuseWord w s).shadow = s.shadow := rfl
@[simp] theorem refuseWord_history (w : Word) (s : State) : (refuseWord w s).history = s.history := rfl
@[simp] theorem refuseWord_rx (w : Word) (s : State) : (refuseWord w s).rx = s.rx := rfl
@[simp] theorem refuseWord_answers (w : Word) (s : State) : (refuseWord w s).answers = s.answers := rfl
@[simp] theorem refuseWord_draws (w : Word) (s : State) : (refuseWord w s).draws = s.draws := rfl
@[simp] theorem refuseWord_port (w : Word) (s : State) : (refuseWord w s).port = s.port := rfl
@[simp] theorem refuseWord_resetReq (w : Word) (s : State) : (refuseWord w s).resetReq = s.resetReq := rfl
@[simp] theorem refuseWord_codecRet (w : Word) (s : State) : (refuseWord w s).codecRet = s.codecRet := rfl
@[simp] theorem refuseWord_params (w : Word) (s : State) : (refuseWord w s).params = s.params := rfl

/-! ### complete -/

@[simp] theorem complete_phase (s : State) : (complete s).phase = .idle := rfl
@[simp] theorem complete_req (s : State) : (complete s).req = s.req := rfl
@[simp] theorem complete_seqIdx (s : State) : (complete s).seqIdx = s.seqIdx := rfl
@[simp] theorem complete_err (s : State) : (complete s).err = s.err := rfl
@[simp] theorem complete_done (s : State) : (complete s).done = true := rfl
@[simp] theorem complete_result (s : State) : (complete s).result = s.result := rfl
@[simp] theorem complete_buf (s : State) : (complete s).buf = s.buf := rfl
@[simp] theorem complete_rbuf (s : State) : (complete s).rbuf = s.rbuf := rfl
@[simp] theorem complete_shadow (s : State) : (complete s).shadow = s.shadow := rfl
@[simp] theorem complete_history (s : State) : (complete s).history = s.history := rfl
@[simp] theorem complete_rx (s : State) : (complete s).rx = s.rx := rfl
@[simp] theorem complete_answers (s : State) : (complete s).answers = s.answers := rfl
@[simp] theorem complete_draws (s : State) : (complete s).draws = s.draws := rfl
@[simp] theorem complete_port (s : State) : (complete s).port = s.port := rfl
@[simp] theorem complete_resetReq (s : State) : (complete s).resetReq = s.resetReq := rfl
@[simp] theorem complete_codecRet (s : State) : (complete s).codecRet = s.codecRet := rfl
@[simp] theorem complete_params (s : State) : (complete s).params = s.params := rfl

/-! ### raiseError -/

@[simp] theorem raiseError_phase (e : ErrCode) (s : State) : (raiseError e s).phase = s.phase := rfl
@[simp] theorem raiseError_req (e : ErrCode) (s : State) : (raiseError e s).req = s.req := rfl
@[simp] theorem raiseError_seqIdx (e : ErrCode) (s : State) : (raiseError e s).seqIdx = s.seqIdx := rfl
@[simp] theorem raiseError_err (e : ErrCode) (s : State) : (raiseError e s).err = raiseErr s.err e := rfl
@[simp] theorem raiseError_done (e : ErrCode) (s : State) : (raiseError e s).done = s.done := rfl
@[simp] theorem raiseError_result (e : ErrCode) (s : State) : (raiseError e s).result = s.result := rfl
@[simp] theorem raiseError_buf (e : ErrCode) (s : State) : (raiseError e s).buf = s.buf := rfl
@[simp] theorem raiseError_rbuf (e : ErrCode) (s : State) : (raiseError e s).rbuf = s.rbuf := rfl
@[simp] theorem raiseError_shadow (e : ErrCode) (s : State) : (raiseError e s).shadow = s.shadow := rfl
@[simp] theorem raiseError_history (e : ErrCode) (s : State) : (raiseError e s).history = s.history := rfl
@[simp] theorem raiseError_rx (e : ErrCode) (s : State) : (raiseError e s).rx = s.rx := rfl
@[simp] theorem raiseError_answers (e : ErrCode) (s : State) : (raiseError e s).answers = s.answers := rfl
@[simp] theorem raiseError_draws (e : ErrCode) (s : State) : (raiseError e s).draws = s.draws := rfl
@[simp] theorem raiseError_port (e : ErrCode) (s : State) : (raiseError e s).port = s.port := rfl
@[simp] theorem raiseError_resetReq (e : ErrCode) (s : State) : (raiseError e s).resetReq = s.resetReq := rfl
@[simp] theorem raiseError_codecRet (e : ErrCode) (s : State) : (raiseError e s).codecRet = s.codecRet := rfl
@[simp] theorem raiseError_params (e : ErrCode) (s : State) : (raiseError e s).params = s.params := rfl

/-! ### giveBack -/

@[simp] theorem giveBack_phase (r : CodecReturn) (s : State) : (giveBack r s).phase = s.phase := rfl
@[simp] theorem giveBack_req (r : CodecReturn) (s : State) : (giveBack r s).req = s.req := rfl
@[simp] theorem giveBack_seqIdx (r : CodecReturn) (s : State) : (giveBack r s).seqIdx = s.seqIdx := rfl
@[simp] theorem giveBack_err (r : CodecReturn) (s : State) : (giveBack r s).err = s.err := rfl
@[simp] theorem giveBack_done (r : CodecReturn) (s : State) : (giveBack r s).done = s.done := rfl
@[simp] theorem giveBack_result (r : CodecReturn) (s : State) : (giveBack r s).result = s.result := rfl
@[simp] theorem giveBack_buf (r : CodecReturn) (s : State) : (giveBack r s).buf = s.buf := rfl
@[simp] theorem giveBack_rbuf (r : CodecReturn) (s : State) : (giveBack r s).rbuf = s.rbuf := rfl
@[simp] theorem giveBack_shadow (r : CodecReturn) (s : State) : (giveBack r s).shadow = s.shadow := rfl
@[simp] theorem giveBack_history (r : CodecReturn) (s : State) : (giveBack r s).history = s.history := rfl
@[simp] theorem giveBack_rx (r : CodecReturn) (s : State) : (giveBack r s).rx = s.rx := rfl
@[simp] theorem giveBack_answers (r : CodecReturn) (s : State) : (giveBack r s).answers = s.answers := rfl
@[simp] theorem giveBack_draws (r : CodecReturn) (s : State) : (giveBack r s).draws = s.draws := rfl
@[simp] theorem giveBack_port (r : CodecReturn) (s : State) : (giveBack r s).port = s.port := rfl
@[simp] theorem giveBack_resetReq (r : CodecReturn) (s : State) : (giveBack r s).resetReq = s.resetReq := rfl
@[simp] theorem giveBack_codecRet (r : CodecReturn) (s : State) : (giveBack r s).codecRet = r := rfl
@[simp] theorem giveBack_params (r : CodecReturn) (s : State) : (giveBack r s).params = s.params := rfl

/-! ### writeBuf -/

@[simp] theorem writeBuf_phase (j : Fin 7) (b : Byte) (s : State) : (writeBuf j b s).phase = s.phase := rfl
@[simp] theorem writeBuf_req (j : Fin 7) (b : Byte) (s : State) : (writeBuf j b s).req = s.req := rfl
@[simp] theorem writeBuf_seqIdx (j : Fin 7) (b : Byte) (s : State) : (writeBuf j b s).seqIdx = s.seqIdx := rfl
@[simp] theorem writeBuf_err (j : Fin 7) (b : Byte) (s : State) : (writeBuf j b s).err = s.err := rfl
@[simp] theorem writeBuf_done (j : Fin 7) (b : Byte) (s : State) : (writeBuf j b s).done = s.done := rfl
@[simp] theorem writeBuf_result (j : Fin 7) (b : Byte) (s : State) : (writeBuf j b s).result = s.result := rfl
@[simp] theorem writeBuf_buf (j : Fin 7) (b : Byte) (s : State) : (writeBuf j b s).buf = s.buf.set j b := rfl
@[simp] theorem writeBuf_rbuf (j : Fin 7) (b : Byte) (s : State) : (writeBuf j b s).rbuf = s.rbuf := rfl
@[simp] theorem writeBuf_shadow (j : Fin 7) (b : Byte) (s : State) : (writeBuf j b s).shadow = s.shadow := rfl
@[simp] theorem writeBuf_history (j : Fin 7) (b : Byte) (s : State) : (writeBuf j b s).history = s.history := rfl
@[simp] theorem writeBuf_rx (j : Fin 7) (b : Byte) (s : State) : (writeBuf j b s).rx = s.rx := rfl
@[simp] theorem writeBuf_answers (j : Fin 7) (b : Byte) (s : State) : (writeBuf j b s).answers = s.answers := rfl
@[simp] theorem writeBuf_draws (j : Fin 7) (b : Byte) (s : State) : (writeBuf j b s).draws = s.draws := rfl
@[simp] theorem writeBuf_port (j : Fin 7) (b : Byte) (s : State) : (writeBuf j b s).port = s.port := rfl
@[simp] theorem writeBuf_resetReq (j : Fin 7) (b : Byte) (s : State) : (writeBuf j b s).resetReq = s.resetReq := rfl
@[simp] theorem writeBuf_codecRet (j : Fin 7) (b : Byte) (s : State) : (writeBuf j b s).codecRet = s.codecRet := rfl
@[simp] theorem writeBuf_params (j : Fin 7) (b : Byte) (s : State) : (writeBuf j b s).params = s.params := rfl

/-! ### engineReset -/

@[simp] theorem engineReset_phase (s : State) : (engineReset s).phase = .idle := rfl
@[simp] theorem engineReset_req (s : State) : (engineReset s).req = 0x00000000#32 := rfl
@[simp] theorem engineReset_seqIdx (s : State) : (engineReset s).seqIdx = 0#9 := rfl
@[simp] theorem engineReset_err (s : State) : (engineReset s).err = 0#4 := rfl
@[simp] theorem engineReset_done (s : State) : (engineReset s).done = false := rfl
@[simp] theorem engineReset_result (s : State) : (engineReset s).result = 0x0000#16 := rfl
@[simp] theorem engineReset_buf (s : State) : (engineReset s).buf = Vector.ofFn fun k => Config.unspecifiedByte s.draws k.val := rfl
@[simp] theorem engineReset_rbuf (s : State) : (engineReset s).rbuf = Vector.ofFn fun k => Config.unspecifiedByte s.draws (7 + k.val) := rfl
@[simp] theorem engineReset_shadow (s : State) : (engineReset s).shadow = { data := none, ctrl := none, re := none } := rfl
@[simp] theorem engineReset_history (s : State) : (engineReset s).history = s.history := rfl
@[simp] theorem engineReset_rx (s : State) : (engineReset s).rx = s.rx := rfl
@[simp] theorem engineReset_answers (s : State) : (engineReset s).answers = s.answers := rfl
@[simp] theorem engineReset_draws (s : State) : (engineReset s).draws = s.draws + 1 := rfl
@[simp] theorem engineReset_port (s : State) : (engineReset s).port = s.port := rfl
@[simp] theorem engineReset_resetReq (s : State) : (engineReset s).resetReq = false := rfl
@[simp] theorem engineReset_codecRet (s : State) : (engineReset s).codecRet = s.codecRet := rfl
@[simp] theorem engineReset_params (s : State) : (engineReset s).params = s.params := rfl

end Sys2Proof.Machine
end

