-- ==== Sys2Proof/Laws/Ops.lean ====
section
/-! SUPPORT. One lemma per shared operation: what it can do, said once. -/

namespace Sys2Proof.Machine

/-! ### The link -/

/-- A completed exchange received exactly the bytes it waited for (spec R62). -/
theorem exchangeOutcome_ok_length {r : Nat} {s : State} {rs : List Byte} (h : exchangeOutcome r s = .ok rs) :
    rs.length = r := by
  unfold exchangeOutcome linkOutcome at h
  split at h
  · cases h; simp; assumption
  · split at h
    · cases h
    · split at h <;> cases h

/-- The received bytes are the first r of what is available (spec R62, R299). -/
theorem exchangeOutcome_of_le {r : Nat} {s : State} (h : r ≤ (available s).length) :
    exchangeOutcome r s = .ok ((available s).take r) := by
  simp [exchangeOutcome, linkOutcome, h]

/-- A failed exchange, by how the delivery ended and how much had arrived (spec R62). -/
theorem exchangeOutcome_fail_cases {r : Nat} {s : State} {c : LinkFail} (h : exchangeOutcome r s = .fail c) :
    (available s).length < r ∧
      ((c = .timeout ∧ (nextAnswer s).ending = .timeout) ∨
        (c = .closed ∧ (nextAnswer s).ending = .closed ∧ available s = []) ∨
        (c = .short ∧ (nextAnswer s).ending = .closed ∧ available s ≠ [])) := by
  unfold exchangeOutcome linkOutcome at h
  split at h
  · cases h
  · refine ⟨by omega, ?_⟩
    split at h
    · cases h; simp_all
    · split at h <;> cases h <;> simp_all

/-! ### Access effects: the fields no access touches -/

/-- An access changes RESULT, BUF, RBUF and the shadow at most (spec R140-R142, R165). -/
theorem accessEffect_shape (acc : Access) (out : LinkOutcome) (s : State) :
    ∃ r b rb sh, accessEffect acc out s = { s with result := r, buf := b, rbuf := rb, shadow := sh } := by
  rcases acc with ⟨a, v⟩ | ⟨a, _ | ⟨_ | j, i⟩⟩ | ⟨a, len⟩ <;> rcases out with rs | c <;> exact ⟨_, _, _, _, rfl⟩

section
variable (acc : Access) (out : LinkOutcome) (s : State)

@[simp] theorem accessEffect_phase : (accessEffect acc out s).phase = s.phase := by
  obtain ⟨_, _, _, _, h⟩ := accessEffect_shape acc out s; rw [h]
@[simp] theorem accessEffect_req : (accessEffect acc out s).req = s.req := by
  obtain ⟨_, _, _, _, h⟩ := accessEffect_shape acc out s; rw [h]
@[simp] theorem accessEffect_seqIdx : (accessEffect acc out s).seqIdx = s.seqIdx := by
  obtain ⟨_, _, _, _, h⟩ := accessEffect_shape acc out s; rw [h]
@[simp] theorem accessEffect_err : (accessEffect acc out s).err = s.err := by
  obtain ⟨_, _, _, _, h⟩ := accessEffect_shape acc out s; rw [h]
@[simp] theorem accessEffect_done : (accessEffect acc out s).done = s.done := by
  obtain ⟨_, _, _, _, h⟩ := accessEffect_shape acc out s; rw [h]
@[simp] theorem accessEffect_history : (accessEffect acc out s).history = s.history := by
  obtain ⟨_, _, _, _, h⟩ := accessEffect_shape acc out s; rw [h]
@[simp] theorem accessEffect_rx : (accessEffect acc out s).rx = s.rx := by
  obtain ⟨_, _, _, _, h⟩ := accessEffect_shape acc out s; rw [h]
@[simp] theorem accessEffect_answers : (accessEffect acc out s).answers = s.answers := by
  obtain ⟨_, _, _, _, h⟩ := accessEffect_shape acc out s; rw [h]
@[simp] theorem accessEffect_draws : (accessEffect acc out s).draws = s.draws := by
  obtain ⟨_, _, _, _, h⟩ := accessEffect_shape acc out s; rw [h]
@[simp] theorem accessEffect_port : (accessEffect acc out s).port = s.port := by
  obtain ⟨_, _, _, _, h⟩ := accessEffect_shape acc out s; rw [h]
@[simp] theorem accessEffect_resetReq : (accessEffect acc out s).resetReq = s.resetReq := by
  obtain ⟨_, _, _, _, h⟩ := accessEffect_shape acc out s; rw [h]
@[simp] theorem accessEffect_codecRet : (accessEffect acc out s).codecRet = s.codecRet := by
  obtain ⟨_, _, _, _, h⟩ := accessEffect_shape acc out s; rw [h]
@[simp] theorem accessEffect_params : (accessEffect acc out s).params = s.params := by
  obtain ⟨_, _, _, _, h⟩ := accessEffect_shape acc out s; rw [h]
end

/-- The target's registers and the buffers each access may change (spec R140-R142, R165). -/
theorem accessEffect_cases (acc : Access) (out : LinkOutcome) (s : State) :
    accessEffect acc out s = s ∨
    (∃ a v, acc = .gpioWrite a v ∧
      accessEffect acc out s = { s with shadow := shadowRomWrite (gpioWordAddr a) (le 2 v.toNat) out.isOk s.shadow }) ∨
    (∃ a act rs, acc = .gpioRead a act ∧ out = .ok rs ∧ accessEffect acc out s = readAction act rs s) ∨
    (∃ a len rs, acc = .gpioReadN a len ∧ out = .ok rs ∧
      accessEffect acc out s = { s with rbuf := rbufAfter len.toNat rs s.rbuf }) := by
  rcases acc with ⟨a, v⟩ | ⟨a, act⟩ | ⟨a, len⟩ <;> rcases out with rs | c <;> simp [accessEffect]

/-- A ROM write of another length than 2 changes no shadow (spec R36). -/
theorem shadowRomWrite_of_length_ne {payload : List Byte} (h : payload.length ≠ 2) (w : Nat) (ok : Bool) (sh : Shadow) :
    shadowRomWrite w payload ok sh = sh := by
  simp [shadowRomWrite, shadowWord, h]

/-! ### The engine step -/

/-- The state on which a step's index rule acts: after the exchange and the access's effect. -/
def afterAccess (acc : Access) (s : State) : State :=
  accessEffect acc (exchangeOutcome (accessCount acc) s) (afterExchange (accessFrame acc) (accessCount acc) s)

@[simp] theorem afterAccess_history (acc : Access) (s : State) :
    (afterAccess acc s).history =
      s.history ++ [⟨accessFrame acc, accessCount acc, exchangeOutcome (accessCount acc) s⟩] := by simp [afterAccess]
@[simp] theorem afterAccess_phase (acc : Access) (s : State) : (afterAccess acc s).phase = s.phase := by simp [afterAccess]
@[simp] theorem afterAccess_req (acc : Access) (s : State) : (afterAccess acc s).req = s.req := by simp [afterAccess]
@[simp] theorem afterAccess_seqIdx (acc : Access) (s : State) : (afterAccess acc s).seqIdx = s.seqIdx := by simp [afterAccess]
@[simp] theorem afterAccess_err (acc : Access) (s : State) : (afterAccess acc s).err = s.err := by simp [afterAccess]
@[simp] theorem afterAccess_done (acc : Access) (s : State) : (afterAccess acc s).done = s.done := by simp [afterAccess]
@[simp] theorem afterAccess_port (acc : Access) (s : State) : (afterAccess acc s).port = s.port := by simp [afterAccess]
@[simp] theorem afterAccess_resetReq (acc : Access) (s : State) : (afterAccess acc s).resetReq = s.resetReq := by simp [afterAccess]
@[simp] theorem afterAccess_codecRet (acc : Access) (s : State) : (afterAccess acc s).codecRet = s.codecRet := by simp [afterAccess]
@[simp] theorem afterAccess_params (acc : Access) (s : State) : (afterAccess acc s).params = s.params := by simp [afterAccess]
@[simp] theorem afterAccess_rx (acc : Access) (s : State) :
    (afterAccess acc s).rx = (available s).drop (accessCount acc) := by simp [afterAccess]
@[simp] theorem afterAccess_answers (acc : Access) (s : State) : (afterAccess acc s).answers = s.answers.tail := by simp [afterAccess]

/-- The engine step when its exchange completes (spec R143). -/
theorem engineStep_ok {p : Plan} {acc : Access} {s : State} {rs : List Byte}
    (h : exchangeOutcome (accessCount acc) s = .ok rs) : engineStep p acc s = advance p (afterAccess acc s) := by
  simp [engineStep, afterAccess, h]

/-- The engine step when its exchange fails (spec R143, R266-R268). -/
theorem engineStep_fail {p : Plan} {acc : Access} {s : State} {c : LinkFail}
    (h : exchangeOutcome (accessCount acc) s = .fail c) : engineStep p acc s = takeError p c (afterAccess acc s) := by
  simp [engineStep, afterAccess, h]

/-- What `advance` can do: complete at SEQ_LEN, or go on (spec R24, R25). -/
theorem advance_cases (p : Plan) (s : State) :
    (s.seqIdx.toNat + 1 = p.seq.length ∧ advance p s = complete { s with seqIdx := s.seqIdx + 1#9 }) ∨
      (s.seqIdx.toNat + 1 ≠ p.seq.length ∧ advance p s = { s with seqIdx := s.seqIdx + 1#9 }) := by
  unfold advance; split <;> simp_all

/-- What error entry can do: jump to Close, or end the request (spec R266-R268). -/
theorem takeError_cases (p : Plan) (c : LinkFail) (s : State) :
    (∃ ci, p.close = some ci ∧ s.seqIdx.toNat < ci ∧
      takeError p c s = { raiseError (failErr c) s with seqIdx := BitVec.ofNat 9 ci }) ∨
    ((∀ ci, p.close = some ci → ci ≤ s.seqIdx.toNat) ∧ takeError p c s = complete (raiseError (failErr c) s)) := by
  unfold takeError
  split
  · rename_i ci h
    split
    · exact .inl ⟨ci, h, ‹_›, rfl⟩
    · exact .inr ⟨by simp_all, rfl⟩
  · exact .inr ⟨by simp_all, rfl⟩

/-! ### Requests -/

/-- A request at IDLE is submitted (spec R92). -/
theorem request_idle {p : Plan} {s : State} (h : s.phase = .idle) : request p s = .next (submit p s) := by
  simp [request, h]

/-- A well-formed request while BUSY makes the engine step at SEQ_IDX (spec R143). -/
theorem request_busy {p : Plan} {s : State} {acc : Access} (h : s.phase = .busy) (hp : p.ok = true)
    (ha : p.seq[s.seqIdx.toNat]? = some acc) : request p s = .next (engineStep p acc s) := by
  simp [request, h, hp, ha]

/-- Everything a request can do when it answers a next state. -/
theorem request_next_cases {p : Plan} {s t : State} (h : request p s = .next t) :
    (s.phase = .idle ∧ t = submit p s) ∨
      (s.phase = .busy ∧ p.ok = true ∧ ∃ acc, p.seq[s.seqIdx.toNat]? = some acc ∧ t = engineStep p acc s) := by
  unfold request at h
  split at h
  · cases h; exact .inl ⟨‹_›, rfl⟩
  · split at h
    · split at h
      · cases h; exact .inr ⟨‹_›, ‹_›, _, ‹_›, rfl⟩
      · cases h
    · cases h

/-- A request instruction's meaning is its plan's request. -/
theorem exec_eq_request {i : Instr} {s : State} {p : Plan} (h : planOf i s = some p) : exec i s = request p s := by
  cases i <;> simp only [planOf, Option.some.injEq, reduceCtorEq] at h <;> subst h <;> rfl

/-- An instruction without a plan is a frame instruction, and answers a next state. -/
theorem exec_frame_next {i : Instr} {s : State} (h : planOf i s = none) : ∃ t, exec i s = .next t := by
  cases i <;> simp only [planOf, reduceCtorEq] at h <;> exact ⟨_, rfl⟩

/-- A plan depends on the state through the parameters and BUF only (spec R23). -/
theorem planOf_congr (i : Instr) {s s' : State} (hp : s'.params = s.params) (hb : s'.buf = s.buf) :
    planOf i s' = planOf i s := by
  cases i <;> simp [planOf, txnPlan, hp, hb]

/-! ### The direct codec calls -/

/-- A write frame's call changes the link, the record and what is returned, nothing else (spec R117). -/
theorem frameWrite_cases (op : Byte) (addr : Word) (payload : List Byte) (s : State) :
    (∃ why, encodeFrame op addr.toNat payload = .error why ∧ frameWrite op addr payload s = giveBack (.error .refused) s) ∨
      (∃ f, encodeFrame op addr.toNat payload = .ok f ∧
        frameWrite op addr payload s = giveBack (writeReturn (transactOutcome f s)) (afterTransact f s)) := by
  unfold frameWrite; split <;> simp_all

/-- A read frame's call changes the link, the record and what is returned, nothing else (spec R117). -/
theorem frameRead_cases (op : Byte) (addr : Word) (len : Half) (s : State) :
    (∃ why, encodeFrame op addr.toNat (le 2 len.toNat) = .error why ∧
        frameRead op addr len s = giveBack (.error .refused) s) ∨
      (∃ f, encodeFrame op addr.toNat (le 2 len.toNat) = .ok f ∧
        frameRead op addr len s = giveBack (readReturn len.toNat (transactOutcome f s)) (afterTransact f s)) := by
  unfold frameRead; split <;> simp_all

/-! ### The step -/

/-- Where the next code comes from: the running request, or the port (spec R21, R31). -/
theorem fetch_cases {s s' : State} {c : Code} (h : fetch s = some (c, s')) :
    s.resetReq = false ∧
      ((s.phase = .busy ∧ c = .request s.req ∧ s' = s) ∨
        (s.phase = .idle ∧ ∃ rest, s.port = .present c :: rest ∧ s' = { s with port := rest })) := by
  unfold fetch at h
  split at h
  · cases h
  · refine ⟨by simp_all, ?_⟩
    split at h
    · cases h; exact .inl ⟨‹_›, rfl, rfl⟩
    · split at h
      · cases h; exact .inr ⟨‹_›, _, ‹_›, rfl⟩
      · cases h
      · cases h

/-- Everything a step can do when it answers a next state. -/
theorem step_cases {s t : State} (h : step s = .next t) :
    (fetch s = none ∧ t = idleEvent s) ∨
      (∃ c s' i, fetch s = some (c, s') ∧ decode c = .ok i ∧ exec i s' = .next t) ∨
      (∃ c s' why, fetch s = some (c, s') ∧ decode c = .error why ∧ turnAway c s' = .next t) := by
  unfold step at h
  split at h
  · rename_i c s' hf
    split at h
    · exact .inr (.inl ⟨c, s', _, hf, ‹_›, h⟩)
    · exact .inr (.inr ⟨c, s', _, hf, ‹_›, h⟩)
  · cases h; exact .inl ⟨‹_›, rfl⟩

/-- What a step that executes nothing does (spec R31, R290). -/
theorem idleEvent_cases (s : State) :
    (s.resetReq = true ∧ idleEvent s = engineReset s) ∨
      (s.resetReq = false ∧ ∃ j b rest, s.port = .writeBuf j b :: rest ∧
        idleEvent s = writeBuf j b { s with port := rest }) ∨
      (s.resetReq = false ∧ idleEvent s = s) := by
  unfold idleEvent
  split
  · exact .inl ⟨‹_›, rfl⟩
  · split <;> simp_all

/-- What turning a code away does when it answers a next state (spec R265). -/
theorem turnAway_cases {c : Code} {s t : State} (h : turnAway c s = .next t) :
    s.phase = .idle ∧
      ((∃ w, c = .request w ∧ t = refuseWord w s) ∨ (∃ bs, c = .frame bs ∧ t = giveBack (.error .refused) s)) := by
  unfold turnAway at h
  split at h
  · cases h
  · refine ⟨‹_›, ?_⟩
    split at h <;> cases h
    · exact .inl ⟨_, rfl, rfl⟩
    · exact .inr ⟨_, rfl, rfl⟩

end Sys2Proof.Machine
end

