-- ==== Sys2Proof/Laws/PerInstr.lean ====
section
/-! SUPPORT. Statements for all instructions, one lemma per constructor. -/

namespace Sys2Proof.Laws

open Sys2Proof.Machine

/-- Anding two request words goes field by field (spec R90). -/
theorem requestWord_and (op n : BitVec 4) (a : Byte) (v : Half) (op' n' : BitVec 4) (a' : Byte) (v' : Half) :
    requestWord op n a v &&& requestWord op' n' a' v' = requestWord (op &&& op') (n &&& n') (a &&& a') (v &&& v') := by
  unfold requestWord
  refine Eq.trans BitVec.and_append ?_
  congr 1
  refine Eq.trans BitVec.and_append ?_
  congr 1
  exact BitVec.and_append

/-- A byte in V has `V[15:8] = 0` (spec R93). -/
theorem byte_high_zero (x : Byte) : x.setWidth 16 &&& 0xFF00#16 = 0x0000#16 := by
  apply BitVec.eq_of_getLsbD_eq
  intro i hi
  interval_cases i <;> simp

/-- An even address has bit 0 clear (spec R57). -/
theorem even_low_zero {a : Byte} (h : evenAddr a = true) : a &&& 0x01#8 = 0x00#8 := by
  simp only [evenAddr, Bool.not_eq_true'] at h
  apply BitVec.eq_of_getLsbD_eq
  intro i hi
  cases i <;> simp_all

namespace EncodeMatchesRow

/-- What an instruction encodes to has the fixed bits of its row of spec/opcode_table.json: the row's mask and match for a
request word, the row's opcode byte at offset 2 for a frame. -/
def Statement (i : Instr) : Prop :=
  i.encodable = true →
    (∀ r, i.row = some r → ∃ w, encode i = .request w ∧ w &&& r.mask = r.value) ∧
    (∀ op, i.frameOpcode = some op → ∃ f, encode i = .frame f ∧ byteAt f 2 = op)

/-- A request instruction's word matches its row when its fields match the row's fields. -/
theorem of_fields {i : Instr} {op n op' n' : BitVec 4} {a a' : Byte} {v v' : Half} {value : Word}
    (he : encode i = .request (requestWord op n a v)) (hr : i.row = some ⟨requestWord op' n' a' v', value⟩)
    (hf : i.frameOpcode = none) (h : requestWord (op &&& op') (n &&& n') (a &&& a') (v &&& v') = value) :
    (∀ r, i.row = some r → ∃ w, encode i = .request w ∧ w &&& r.mask = r.value) ∧
    (∀ op, i.frameOpcode = some op → ∃ f, encode i = .frame f ∧ byteAt f 2 = op) := by
  refine ⟨?_, by simp [hf]⟩
  intro r hr'
  rw [hr] at hr'
  cases hr'
  exact ⟨_, he, by rw [requestWord_and]; exact h⟩

/-- A frame instruction's frame has its opcode at offset 2 (spec R80). -/
theorem of_frame {i : Instr} {op : Byte} {addr : Nat} {payload : List Byte}
    (he : encode i = .frame (frameBytes op addr payload)) (hr : i.row = none) (hf : i.frameOpcode = some op) :
    (∀ r, i.row = some r → ∃ w, encode i = .request w ∧ w &&& r.mask = r.value) ∧
    (∀ op, i.frameOpcode = some op → ∃ f, encode i = .frame f ∧ byteAt f 2 = op) := by
  refine ⟨by simp [hr], ?_⟩
  intro o ho
  rw [hf] at ho
  cases ho
  exact ⟨_, he, rfl⟩

theorem bbSendCmd (x : Byte) : Statement (.bbSendCmd x) := fun _ =>
  of_fields (op' := 0xF#4) (n' := 0xF#4) (a' := 0xFF#8) (v' := 0xFF00#16) rfl rfl rfl (by rw [byte_high_zero]; rfl)

theorem bbWriteByte (x : Byte) : Statement (.bbWriteByte x) := fun _ =>
  of_fields (op' := 0xF#4) (n' := 0xF#4) (a' := 0xFF#8) (v' := 0xFF00#16) rfl rfl rfl (by rw [byte_high_zero]; rfl)

theorem bbReadByte : Statement .bbReadByte := fun _ =>
  of_fields (op' := 0xF#4) (n' := 0xF#4) (a' := 0xFF#8) (v' := 0xFFFF#16) rfl rfl rfl rfl

theorem gpioWrite16 (a : Byte) (v : Half) : Statement (.gpioWrite16 a v) := fun h =>
  of_fields (op' := 0xF#4) (n' := 0xF#4) (a' := 0x01#8) (v' := 0x0000#16) rfl rfl rfl
    (by rw [even_low_zero h, BitVec.and_zero]; rfl)

theorem gpioRead16 (a : Byte) : Statement (.gpioRead16 a) := fun h =>
  of_fields (op' := 0xF#4) (n' := 0xF#4) (a' := 0x01#8) (v' := 0xFFFF#16) rfl rfl rfl (by rw [even_low_zero h]; rfl)

theorem gpioReadN (a : Byte) (len : Half) : Statement (.gpioReadN a len) := fun h =>
  of_fields (op' := 0xF#4) (n' := 0xF#4) (a' := 0x01#8) (v' := 0x0000#16) rfl rfl rfl
    (by rw [even_low_zero h, BitVec.and_zero]; rfl)

theorem rtcTxn (c : Byte) (n : BitVec 4) : Statement (.rtcTxn c n) := fun _ =>
  of_fields (op' := 0xF#4) (n' := 0x0#4) (a' := 0x00#8) (v' := 0xFFFF#16) rfl rfl rfl
    (by rw [BitVec.and_zero, BitVec.and_zero]; rfl)

theorem rtcReset : Statement .rtcReset := fun _ =>
  of_fields (op' := 0xF#4) (n' := 0xF#4) (a' := 0xFF#8) (v' := 0xFFFF#16) rfl rfl rfl rfl

theorem rtcWriteStatus : Statement .rtcWriteStatus := fun _ =>
  of_fields (op' := 0xF#4) (n' := 0xF#4) (a' := 0xFF#8) (v' := 0xFFFF#16) rfl rfl rfl rfl

theorem rtcReadStatus : Statement .rtcReadStatus := fun _ =>
  of_fields (op' := 0xF#4) (n' := 0xF#4) (a' := 0xFF#8) (v' := 0xFFFF#16) rfl rfl rfl rfl

theorem rtcWriteDate : Statement .rtcWriteDate := fun _ =>
  of_fields (op' := 0xF#4) (n' := 0xF#4) (a' := 0xFF#8) (v' := 0xFFFF#16) rfl rfl rfl rfl

theorem rtcReadDate : Statement .rtcReadDate := fun _ =>
  of_fields (op' := 0xF#4) (n' := 0xF#4) (a' := 0xFF#8) (v' := 0xFFFF#16) rfl rfl rfl rfl

theorem rtcWriteTime (n : BitVec 4) : Statement (.rtcWriteTime n) := fun _ =>
  of_fields (op' := 0xF#4) (n' := 0x0#4) (a' := 0xFF#8) (v' := 0xFFFF#16) rfl rfl rfl (by rw [BitVec.and_zero]; rfl)

theorem rtcReadTime (n : BitVec 4) : Statement (.rtcReadTime n) := fun _ =>
  of_fields (op' := 0xF#4) (n' := 0x0#4) (a' := 0xFF#8) (v' := 0xFFFF#16) rfl rfl rfl (by rw [BitVec.and_zero]; rfl)

theorem rtcWriteAlarm (n : BitVec 4) : Statement (.rtcWriteAlarm n) := fun _ =>
  of_fields (op' := 0xF#4) (n' := 0x0#4) (a' := 0xFF#8) (v' := 0xFFFF#16) rfl rfl rfl (by rw [BitVec.and_zero]; rfl)

theorem rtcReadAlarm (n : BitVec 4) : Statement (.rtcReadAlarm n) := fun _ =>
  of_fields (op' := 0xF#4) (n' := 0x0#4) (a' := 0xFF#8) (v' := 0xFFFF#16) rfl rfl rfl (by rw [BitVec.and_zero]; rfl)

theorem frWriteRom (addr : Word) (payload : List Byte) : Statement (.frWriteRom addr payload) := fun _ => of_frame rfl rfl rfl

theorem frReadRom (addr : Word) (len : Half) : Statement (.frReadRom addr len) := fun _ => of_frame rfl rfl rfl

theorem frWriteRam (addr : Word) (payload : List Byte) : Statement (.frWriteRam addr payload) := fun _ => of_frame rfl rfl rfl

theorem frReadRam (addr : Word) (len : Half) : Statement (.frReadRam addr len) := fun _ => of_frame rfl rfl rfl

end EncodeMatchesRow

end Sys2Proof.Laws
end

