-- ==== Sys2Proof/Laws/Sequences.lean ====
section
/-! SUPPORT. Small lemmas of the access sequences: lengths, and plain membership. -/

namespace Sys2Proof.Machine

@[simp] theorem cmdBit_length (b : Bool) : (cmdBit b).length = 4 := rfl

@[simp] theorem sendCmdSeq_length (x : Byte) : (sendCmdSeq x).length = 32 := rfl

@[simp] theorem writeByteSeq_length (x : Byte) : (writeByteSeq x).length = 32 := rfl

@[simp] theorem readBit_length (dst : SampleDst) (i : Fin 8) : (readBit dst i).length = 7 := rfl

@[simp] theorem readByteSeq_length (dst : SampleDst) : (readByteSeq dst).length = 56 := rfl

@[simp] theorem openSeq_length : openSeq.length = 4 := rfl

@[simp] theorem closeSeq_length : closeSeq.length = 5 := rfl

@[simp] theorem bufSlots_length (n : Nat) : (bufSlots n).length = min n 7 := by simp [bufSlots]

/-- A transaction is what stands before Close, then Close (spec R186). -/
theorem txnSeq_length (c : Byte) (n : Nat) (buf : Vector Byte 7) :
    (txnSeq c n buf).length = (txnBody c n buf).length + 5 := by simp [txnSeq]

/-- A bit group writes the Data register only, CS held high (spec R160). -/
theorem mem_cmdBit {acc : Access} {b : Bool} (h : acc ∈ cmdBit b) :
    acc = .gpioWrite Config.gpioData (dataWord true b false) ∨ acc = .gpioWrite Config.gpioData (dataWord true b true) := by
  simpa [cmdBit] using h

end Sys2Proof.Machine
end

