-- ==== Sys2Proof/Machine/Assembler.lean ====
section
/-! DEFINITION. The written form of client operations: request syntax (spec R105) and pseudo-operations (spec R106), on a line
already cut into its mnemonic and operands. -/

namespace Sys2Proof.Machine

/-- An operand: a number, or a symbolic name, which "may stand for the addresses" (spec R105). That a name in an operand that is no
address is taken as its number too is the model's choice (DESIGN CHOICE, log 19). -/
inductive AsmArg where
  | num (n : Nat)
  | symData | symCtrl | symRe
  deriving DecidableEq, Repr

/-- The operand's number (spec R105). -/
def AsmArg.value : AsmArg → Nat
  | .num n => n
  | .symData => 0xC4 | .symCtrl => 0xC6 | .symRe => 0xC8

/-- The operand as a field of n bits; none when it does not fit, and a symbolic name is its number in whatever operand it stands
(DESIGN CHOICE, log 19). -/
def AsmArg.asField (n : Nat) (x : AsmArg) : Option (BitVec n) :=
  if x.value < 2 ^ n then some (BitVec.ofNat n x.value) else none

/-- Submitting a word. -/
def submitOp (op n : BitVec 4) (a : Byte) (v : Half) : PortOp := .present (.request (requestWord op n a v))

/-- `rtc.txn <cmd>, <n>` for a length that is given (spec R106). -/
def txnOp (c : Byte) (n : Option Nat) : Option PortOp :=
  n.map fun n => submitOp 0x7#4 (BitVec.ofNat 4 n) c 0#16

/-- `buf 0, b0 ; buf 1, b1 ; ...` for exactly n bytes (spec R106). -/
def bufOps (n : Option Nat) (bytes : List AsmArg) : Option (List PortOp) :=
  if n = some bytes.length ∧ bytes.length ≤ 7 then
    (bytes.zipIdx).mapM fun (x, j) => (x.asField 8).map fun b => .writeBuf (Fin.ofNat 7 j) b
  else none

/-- A write pseudo-operation: the data bytes, then the transaction (spec R106). -/
def writePseudo (p : Params) (c : Byte) (bytes : List AsmArg) : Option (List PortOp) :=
  match bufOps (dataLen p c) bytes, txnOp c (dataLen p c) with
  | some ops, some t => some (ops ++ [t])
  | _, _ => none

/-- One line of R105 or R106 as client operations; none for a line that is not of these forms. -/
def assemble (p : Params) (mnemonic : String) (args : List AsmArg) : Option (List PortOp) :=
  if mnemonic = "bb.cmd" then
    match args with
    | [x] => (x.asField 8).map fun b => [submitOp 0x1#4 0#4 0#8 (b.setWidth 16)]
    | _ => none
  else if mnemonic = "bb.wr" then
    match args with
    | [x] => (x.asField 8).map fun b => [submitOp 0x2#4 0#4 0#8 (b.setWidth 16)]
    | _ => none
  else if mnemonic = "bb.rd" then
    match args with
    | [] => some [submitOp 0x3#4 0#4 0#8 0#16]
    | _ => none
  else if mnemonic = "gpio.wr16" then
    match args with
    | [a, v] => (a.asField 8).bind fun a => (v.asField 16).map fun v => [submitOp 0x4#4 0#4 a v]
    | _ => none
  else if mnemonic = "gpio.rd16" then
    match args with
    | [a] => (a.asField 8).map fun a => [submitOp 0x5#4 0#4 a 0#16]
    | _ => none
  else if mnemonic = "gpio.rdn" then
    match args with
    | [a, l] => (a.asField 8).bind fun a => (l.asField 16).map fun l => [submitOp 0x6#4 0#4 a l]
    | _ => none
  else if mnemonic = "rtc.txn" then
    match args with
    | [c, n] => (c.asField 8).bind fun c => (n.asField 4).map fun n => [submitOp 0x7#4 n c 0#16]
    | _ => none
  else if mnemonic = "buf" then
    match args with
    | [j, x] => if h : j.value < 7 then (x.asField 8).map fun b => [.writeBuf ⟨j.value, h⟩ b] else none
    | _ => none
  else if mnemonic = "rtc.reset" then
    match args with
    | [] => (txnOp 0x60#8 (dataLen p 0x60#8)).map fun t => [t]
    | _ => none
  else if mnemonic = "rtc.read_status" then
    match args with
    | [] => (txnOp 0x63#8 (dataLen p 0x63#8)).map fun t => [t]
    | _ => none
  else if mnemonic = "rtc.write_status" then writePseudo p 0x62#8 args
  else if mnemonic = "rtc.read_date_time" then
    match args with
    | [] => (txnOp 0x65#8 (dataLen p 0x65#8)).map fun t => [t]
    | _ => none
  else if mnemonic = "rtc.write_date_time" then writePseudo p 0x64#8 args
  else if mnemonic = "rtc.read_time" then
    match args with
    | [] => (txnOp 0x67#8 (dataLen p 0x67#8)).map fun t => [t]
    | _ => none
  else if mnemonic = "rtc.write_time" then writePseudo p 0x66#8 args
  else if mnemonic = "rtc.read_alarm" then
    match args with
    | [] => (txnOp 0x69#8 (dataLen p 0x69#8)).map fun t => [t]
    | _ => none
  else if mnemonic = "rtc.write_alarm" then writePseudo p 0x68#8 args
  else none

end Sys2Proof.Machine
end

