-- ==== Sys2Proof/Tests/Slice0.lean ====
section
/-! SUPPORT. Tests with expected results from the spec (section 95 vectors and the rules' examples), and one witness for every
statement with hypotheses. -/

namespace Sys2Proof.Tests

open Sys2Proof Sys2Proof.Machine

/-! ### Helpers -/

/-- A link answer that just ends when its bytes are used up. -/
def bytes (bs : List Byte) : LinkAnswer := { bytes := bs, ending := .timeout }
/-- The stream is closed after these bytes. -/
def closing (bs : List Byte) : LinkAnswer := { bytes := bs, ending := .closed }
/-- After reset, with these client operations presented and these answers given. -/
def idle (port : List PortOp) (answers : List LinkAnswer := []) : State := { State.reset with port := port, answers := answers }
/-- Running the request w at access k, with these answers given. -/
def busy (w : Word) (k : BitVec 9) (answers : List LinkAnswer := []) : State :=
  { State.reset with phase := .busy, req := w, seqIdx := k, answers := answers }
/-- A word submitted. -/
def sub (w : Word) : PortOp := .present (.request w)
/-- The next state, or the state itself where the machine stops. -/
def next (o : Host.Outcome State Fault Refusal) : State :=
  match o with
  | .next s => s
  | .fault _ => State.reset
  | .refused _ => State.reset
/-- The low byte of each written value. -/
def written (q : List Access) : List Nat := q.filterMap fun a => match a with
  | .gpioWrite _ v => some v.toNat
  | .gpioRead _ _ => none
  | .gpioReadN _ _ => none
/-- An answer of exactly the response's length, whose sampled bit is 1. -/
def answerFor (acc : Access) : LinkAnswer := bytes (List.replicate (accessCount acc) 0x02#8)
/-- One byte more than LENGTH can count. -/
def tooLong : List Byte := List.replicate 65529 0x00#8
theorem tooLong_length : tooLong.length = 65529 := List.length_replicate
/-- Both parameters given (the values of spec R195, R197's examples). -/
def given : Params := { nTime := some 3, nAlarm := some 2 }

/-- Answers of the right lengths fit their sequence. -/
theorem answersFit_map (q : List Access) : AnswersFit q (q.map answerFor) := by
  induction q with
  | nil => exact .nil
  | cons a q ih => exact .cons (by simp [answerFor, bytes]) ih

/-! ### Well-formedness: each check refuses (spec R93, V-E2) -/

theorem test_wf_gpio_odd : Instr.wf given (.gpioWrite16 0xC5#8 0x0001#16) = false ∧ Instr.wf given (.gpioRead16 0xC5#8) = false ∧
    Instr.wf given (.gpioReadN 0xC5#8 0x0006#16) = false := by decide
theorem test_wf_readN_length : Instr.wf given (.gpioReadN 0xC4#8 0x0000#16) = false ∧
    Instr.wf given (.gpioReadN 0xC4#8 0x0011#16) = false ∧ Instr.wf given (.gpioReadN 0xC4#8 0x0010#16) = true := by decide
theorem test_wf_txn_command : Instr.wf given (.rtcTxn 0x61#8 0x0#4) = false ∧ Instr.wf given (.rtcTxn 0x63#8 0x2#4) = false := by
  decide
theorem test_wf_time_alarm_length : Instr.wf given (.rtcWriteTime 0x7#4) = false ∧ Instr.wf given (.rtcReadTime 0x0#4) = false ∧
    Instr.wf given (.rtcWriteAlarm 0x3#4) = false ∧ Instr.wf given (.rtcReadAlarm 0x1#4) = false ∧
    Instr.wf given (.rtcReadTime 0x3#4) = true ∧ Instr.wf given (.rtcReadAlarm 0x2#4) = true := by decide
theorem test_wf_time_not_given : Instr.wf State.reset.params (.rtcReadTime 0x3#4) = false ∧
    Instr.wf State.reset.params (.rtcWriteAlarm 0x2#4) = false := by decide
theorem test_wf_payload_length : Instr.wf given (.frWriteRom 0#32 tooLong) = false ∧
    Instr.wf given (.frWriteRam 0#32 tooLong) = false := by
  simp [Instr.wf, tooLong_length]

/-! ### Decoding words written out from the spec's encodings -/

/-- Request words of spec R161, R163, R166, R144, R145, R147. -/
theorem test_decode_requests :
    decode (.request 0x10000065#32) = .ok (.bbSendCmd 0x65#8) ∧ decode (.request 0x20000040#32) = .ok (.bbWriteByte 0x40#8) ∧
    decode (.request 0x30000000#32) = .ok .bbReadByte ∧
    decode (.request 0x40C80001#32) = .ok (.gpioWrite16 0xC8#8 0x0001#16) ∧
    decode (.request 0x50C40000#32) = .ok (.gpioRead16 0xC4#8) ∧
    decode (.request 0x60C40006#32) = .ok (.gpioReadN 0xC4#8 0x0006#16) := by decide

/-- Transaction words of spec R106, R190-R198 (N_TIME = 3, N_ALARM = 2), and one of RTC_TXN's own row. -/
theorem test_decode_transactions :
    decode (.request 0x70600000#32) = .ok .rtcReset ∧ decode (.request 0x71620000#32) = .ok .rtcWriteStatus ∧
    decode (.request 0x71630000#32) = .ok .rtcReadStatus ∧ decode (.request 0x77640000#32) = .ok .rtcWriteDate ∧
    decode (.request 0x77650000#32) = .ok .rtcReadDate ∧ decode (.request 0x73660000#32) = .ok (.rtcWriteTime 3#4) ∧
    decode (.request 0x73670000#32) = .ok (.rtcReadTime 3#4) ∧ decode (.request 0x72680000#32) = .ok (.rtcWriteAlarm 2#4) ∧
    decode (.request 0x72690000#32) = .ok (.rtcReadAlarm 2#4) ∧
    decode (.request 0x71600000#32) = .ok (.rtcTxn 0x60#8 1#4) := by decide

/-- Frames of spec R120-R123. -/
theorem test_decode_frames :
    decode (.frame [0x09#8, 0x00#8, 0xF5#8, 0x64#8, 0x00#8, 0x00#8, 0x00#8, 0x01#8, 0x00#8, 0x00#8, 0x00#8]) =
      .ok (.frWriteRom 0x64#32 [0x01#8, 0x00#8]) ∧
    decode (.frame [0x09#8, 0x00#8, 0xF6#8, 0x62#8, 0x00#8, 0x00#8, 0x00#8, 0x02#8, 0x00#8, 0x00#8, 0x00#8]) =
      .ok (.frReadRom 0x62#32 0x0002#16) ∧
    decode (.frame [0x08#8, 0x00#8, 0xF7#8, 0x34#8, 0x12#8, 0x00#8, 0x00#8, 0xAA#8, 0x00#8, 0x00#8]) =
      .ok (.frWriteRam 0x1234#32 [0xAA#8]) ∧
    decode (.frame [0x09#8, 0x00#8, 0xF8#8, 0x00#8, 0x00#8, 0x01#8, 0x00#8, 0x04#8, 0x00#8, 0x00#8, 0x00#8]) =
      .ok (.frReadRam 0x00010000#32 0x0004#16) := by decide

/-- Words that are no instruction (spec R93, R94, V-E2). -/
theorem test_decode_rejects_words :
    decode (.request 0x00000000#32) = .error .reservedOp ∧ decode (.request 0x80000000#32) = .error .reservedOp ∧
    decode (.request 0x10000165#32) = .error .nonzeroField ∧ decode (.request 0x30000001#32) = .error .nonzeroField ∧
    decode (.request 0x41C80001#32) = .error .nonzeroField ∧ decode (.request 0x40C50001#32) = .error .oddAddress ∧
    decode (.request 0x70600001#32) = .error .nonzeroField := by decide

/-- V-F3: the frame parser's verdicts. -/
theorem test_decode_rejects_frames :
    decode (.frame [0x07#8, 0x00#8, 0xF5#8, 0x00#8, 0x00#8, 0x00#8, 0x00#8, 0x00#8]) = .error (.frame .tooShort) ∧
    decode (.frame [0x0A#8, 0x00#8, 0xF5#8, 0x62#8, 0x00#8, 0x00#8, 0x00#8, 0x05#8, 0x00#8, 0x00#8, 0x00#8]) =
      .error (.frame .lengthMismatch) ∧
    decode (.frame [0x09#8, 0x00#8, 0xF9#8, 0x62#8, 0x00#8, 0x00#8, 0x00#8, 0x05#8, 0x00#8, 0x00#8, 0x00#8]) =
      .error (.frame .badOpcode) ∧
    decode (.frame [0x09#8, 0x00#8, 0xF5#8, 0x62#8, 0x00#8, 0x00#8, 0x00#8, 0x05#8, 0x00#8, 0x01#8, 0x00#8]) =
      .error (.frame .badTrailer) ∧
    decode (.frame [0x0A#8, 0x00#8, 0xF6#8, 0x62#8, 0x00#8, 0x00#8, 0x00#8, 0x02#8, 0x00#8, 0x00#8, 0x00#8, 0x00#8]) =
      .error (.frame .badReadPayload) := by decide

/-- The opcode table's own words, as the host asks for them. -/
theorem test_table_words :
    decodeTableWord 32 0x10000000 = some (.bbSendCmd 0x00#8) ∧ decodeTableWord 32 0x77650000 = some .rtcReadDate ∧
    decodeTableWord 8 0xF5 = some (.frWriteRom 0#32 []) ∧ decodeTableWord 8 0xF8 = some (.frReadRam 0#32 0x0000#16) ∧
    decodeTableWord 32 0 = none := by decide

/-- The first step after reset runs the word placed for it. -/
theorem test_withFetchWord :
    step (State.reset.withFetchWord 32 0x40C80001) = exec (.gpioWrite16 0xC8#8 0x0001#16) State.reset ∧
    step (State.reset.withFetchWord 8 0xF6) = exec (.frReadRom 0#32 0x0000#16) State.reset := ⟨rfl, rfl⟩

/-! ### The codec (V-F2, V-F4) -/

theorem test_encode_refusals :
    encodeFrame 0xF4#8 0 [0#8, 0#8] = .error .badOpcode ∧ encodeFrame 0xF5#8 0x100000000 [0#8, 0#8] = .error .badAddress ∧
    encodeFrame 0xF6#8 0x62 [0x02#8] = .error .badReadPayload ∧
    encodeFrame 0xF8#8 0 [0x02#8, 0#8, 0#8] = .error .badReadPayload := by decide
theorem test_decode_response :
    decodeResponse [0xAA#8, 0xBB#8, 0x34#8, 0x12#8] 2 = .ok [0x34#8, 0x12#8] ∧ decodeResponse [0#8, 0#8] 0 = .ok [] ∧
    decodeResponse [0#8, 0#8, 0x34#8] 2 = .error 3 := by decide

/-! ### Sequences (V-S4, R161, R163, R190, R199) -/

theorem test_sendCmdSeq_values : written (sendCmdSeq 0x65#8) =
    [4, 4, 4, 5, 6, 6, 6, 7, 6, 6, 6, 7, 4, 4, 4, 5, 4, 4, 4, 5, 6, 6, 6, 7, 4, 4, 4, 5, 6, 6, 6, 7] := by decide
theorem test_writeByteSeq_values : written (writeByteSeq 0xB0#8) =
    [4, 4, 4, 5, 4, 4, 4, 5, 4, 4, 4, 5, 4, 4, 4, 5, 6, 6, 6, 7, 6, 6, 6, 7, 4, 4, 4, 5, 6, 6, 6, 7] := by decide
set_option maxRecDepth 8000 in
theorem test_transaction_lengths :
    (txnSeq 0x62#8 1 State.reset.buf).length = 73 ∧ (txnSeq 0x63#8 1 State.reset.buf).length = 98 ∧
    (txnSeq 0x64#8 7 State.reset.buf).length = 265 ∧ (txnSeq 0x65#8 7 State.reset.buf).length = 434 :=
  ⟨rfl, rfl, rfl, rfl⟩

/-! ### Steps -/

/-- R161, R143: the first write of `bb.cmd 0x65`. -/
theorem test_bbSendCmd_first_write : (next (exec (.bbSendCmd 0x65#8) (busy 0x10000065#32 0#9 [bytes [0x00#8]]))).history =
    [⟨[0x09#8, 0x00#8, 0xF5#8, 0x62#8, 0x00#8, 0x00#8, 0x00#8, 0x04#8, 0x00#8, 0x00#8, 0x00#8], 1, .ok [0x00#8]⟩] := by decide
/-- R163, R25: the last write of `bb.wr 0x40` (bit 7 is 0) ends the request. -/
theorem test_bbWriteByte_last_write :
    let t := next (exec (.bbWriteByte 0x40#8) (busy 0x20000040#32 31#9 [bytes [0xFF#8]]))
    t.phase = .idle ∧ t.done = true ∧ t.seqIdx = 32#9 ∧ t.shadow.data = some 0x0005#16 := by decide
/-- R165: the fourth sample puts a 1 into bit 3. -/
theorem test_bbReadByte_sample :
    (next (exec .bbReadByte { busy 0x30000000#32 27#9 [bytes [0x11#8, 0x22#8, 0x02#8, 0x00#8]] with result := 0x0005#16 })).result =
      0x000D#16 := by decide
/-- R268: a closed stream in `bb.rd` ends it with LINK_CLOSED. -/
theorem test_bbReadByte_closed : readStatus (next (exec .bbReadByte (busy 0x30000000#32 0#9 [closing []]))) = 0x22#8 := by decide
/-- R144: `gpio.wr16 0xC8, 1`. -/
theorem test_gpioWrite16 :
    let t := next (exec (.gpioWrite16 0xC8#8 0x0001#16) (busy 0x40C80001#32 0#9 [bytes [0x00#8]]))
    t.history.map ExchangeRecord.frame = [[0x09#8, 0x00#8, 0xF5#8, 0x64#8, 0x00#8, 0x00#8, 0x00#8, 0x01#8, 0x00#8, 0x00#8, 0x00#8]] ∧
      t.shadow.re = some 0x0001#16 ∧ readStatus t = 0x02#8 := by decide
/-- R145: the response 00 00 07 00 gives RESULT = 0x0007; R55: 34 12 gives 0x1234. -/
theorem test_gpioRead16 :
    (next (exec (.gpioRead16 0xC4#8) (busy 0x50C40000#32 0#9 [bytes [0x00#8, 0x00#8, 0x07#8, 0x00#8]]))).result = 0x0007#16 ∧
    (next (exec (.gpioRead16 0xC4#8) (busy 0x50C40000#32 0#9 [bytes [0xAA#8, 0xBB#8, 0x34#8, 0x12#8]]))).result = 0x1234#16 := by
  decide
/-- R62, R260: a short read is LINK_SHORT and leaves RESULT. -/
theorem test_gpioRead16_short :
    let t := next (exec (.gpioRead16 0xC4#8) (busy 0x50C40000#32 0#9 [closing [0x00#8, 0x00#8, 0x07#8]]))
    readStatus t = 0x32#8 ∧ t.result = 0x0000#16 := by decide
/-- R148: RBUF takes the bytes after the header; the rest keeps its values. -/
theorem test_gpioReadN :
    (next (exec (.gpioReadN 0xC4#8 0x0002#16) (busy 0x60C40002#32 0#9 [bytes [0xFF#8, 0xFF#8, 0x11#8, 0x22#8]]))).rbuf.toList =
      0x11#8 :: 0x22#8 :: List.replicate 14 0x00#8 := by decide
/-- R180: an unknown command is refused, REQ and ERR only (V-E2). -/
theorem test_rtcTxn_refused : readStatus (next (exec (.rtcTxn 0x61#8 0#4) State.reset)) = 0x52#8 ∧
    (next (exec (.rtcTxn 0x61#8 0#4) State.reset)).req = 0x70610000#32 := by decide
/-- R190, R266: a timeout at the first access of RESET jumps to CLOSE_IDX = 36. -/
theorem test_rtcReset_error : (next (exec .rtcReset (busy 0x70600000#32 0#9 [bytes []]))).seqIdx = 36#9 ∧
    readStatus (next (exec .rtcReset (busy 0x70600000#32 0#9 [bytes []]))) = 0x11#8 := by decide
/-- R191: the first data write of WRITE_STATUS with BUF[0] = 0x01 drives SIO = 1. -/
theorem test_rtcWriteStatus_data :
    (next (exec .rtcWriteStatus { busy 0x71620000#32 36#9 [bytes [0x00#8]] with buf := #v[1, 0, 0, 0, 0, 0, 0] })).shadow.data =
      some 0x0006#16 := by decide
/-- R192: the last sample of READ_STATUS (access 92) sets bit 7 of BUF[0]. -/
theorem test_rtcReadStatus_sample :
    (next (exec .rtcReadStatus (busy 0x71630000#32 92#9 [bytes [0x00#8, 0x00#8, 0x02#8, 0x00#8]]))).buf[0] = 0x80#8 := by decide
set_option maxRecDepth 8000 in
/-- R193, R267: a failed Close write of WRITE_DATE (access 260) ends it. -/
theorem test_rtcWriteDate_close_error : readStatus (next (exec .rtcWriteDate (busy 0x77640000#32 260#9 [closing []]))) = 0x22#8 := by
  decide
set_option maxRecDepth 8000 in
/-- R194: the first access of the data phase of READ_DATE is Control = 5. -/
theorem test_rtcReadDate_control : (next (exec .rtcReadDate (busy 0x77650000#32 36#9 [bytes [0x00#8]]))).shadow.ctrl =
    some 0x0005#16 := by decide
/-- R195-R198: refused while the parameter is not given, accepted when it is. -/
theorem test_rtcWriteTime_accept : readStatus (next (exec (.rtcWriteTime 3#4) State.reset)) = 0x52#8 ∧
    readStatus (next (exec (.rtcWriteTime 3#4) { State.reset with params := given })) = 0x01#8 := by decide
theorem test_rtcReadTime_accept : readStatus (next (exec (.rtcReadTime 3#4) State.reset)) = 0x52#8 ∧
    readStatus (next (exec (.rtcReadTime 3#4) { State.reset with params := given })) = 0x01#8 := by decide
theorem test_rtcWriteAlarm_accept : readStatus (next (exec (.rtcWriteAlarm 2#4) State.reset)) = 0x52#8 ∧
    readStatus (next (exec (.rtcWriteAlarm 2#4) { State.reset with params := given })) = 0x01#8 := by decide
theorem test_rtcReadAlarm_accept : readStatus (next (exec (.rtcReadAlarm 2#4) State.reset)) = 0x52#8 ∧
    readStatus (next (exec (.rtcReadAlarm 2#4) { State.reset with params := given })) = 0x01#8 := by decide
/-- R120, R36: a 2-byte write to word 0x63 sets Control. -/
theorem test_frWriteRom :
    let t := next (exec (.frWriteRom 0x63#32 [0x07#8, 0x00#8]) (idle [] [bytes [0x00#8]]))
    t.codecRet = .bytes [] ∧ t.shadow.ctrl = some 0x0007#16 ∧ t.shadow.data = none := by decide
/-- R36: a ROM write of another length changes no shadow. -/
theorem test_frWriteRom_other_length :
    (next (exec (.frWriteRom 0x62#32 [1#8, 0#8, 7#8, 0#8])
      { idle [] [bytes [0x00#8]] with shadow := ⟨some 5#16, some 5#16, none⟩ })).shadow = ⟨some 5#16, some 5#16, none⟩ := by decide
/-- R121: the decoded response of a 16-bit read. -/
theorem test_frReadRom :
    (next (exec (.frReadRom 0x62#32 0x0002#16) (idle [] [bytes [0xAA#8, 0xBB#8, 0x34#8, 0x12#8]]))).codecRet =
      .bytes [0x34#8, 0x12#8] := by decide
/-- R122: the frame of R122's example. -/
theorem test_frWriteRam : (next (exec (.frWriteRam 0x1234#32 [0xAA#8]) (idle [] [bytes [0x00#8]]))).history =
    [⟨[0x08#8, 0x00#8, 0xF7#8, 0x34#8, 0x12#8, 0x00#8, 0x00#8, 0xAA#8, 0x00#8, 0x00#8], 1, .ok [0x00#8]⟩] := by decide
/-- R123: 6 response bytes are awaited; a stream closed after 5 is LINK_SHORT. -/
theorem test_frReadRam : (next (exec (.frReadRam 0x00010000#32 0x0004#16)
    (idle [] [closing [0#8, 0#8, 1#8, 2#8, 3#8]]))).codecRet = .error .linkShort := by decide

/-! ### Client software (V-S1, V-S3, V-S6) and the assembler (R106) -/

theorem test_hourEnc : hourEnc 14 = some 0x94#8 ∧ hourEnc 11 = some 0x11#8 ∧ hourEnc 0 = some 0x00#8 ∧ hourEnc 23 = some 0xA3#8 := by
  decide
theorem test_reset_payload : decodeDate (Vector.replicate 7 0xFF#8) =
    { year := 0, month := 1, day := 1, weekday := 0, hour := 0, minute := 0, second := 0 } ∧
    reportedFields (Vector.replicate 7 0xFF#8) = dateFields ∧ reportedStatus 0xFF#8 = 0xC0#8 := by decide
/-- V-C6, the snapshot's status byte 0x40: both readings of the cached flag are 0. -/
theorem test_h24FromCache :
    let snap := persistSnapshot #v[0x24, 0x03, 0x15, 0x05, 0x94, 0x30, 0x45] 0x40#8 1710513045#64
    h24FromCache .seven snap = false ∧ h24FromCache .zero snap = false := by decide
/-- R38, R248: no snapshot is cached after a reset; a step that is no reset keeps CACHE. -/
theorem test_clientStep_cache :
    let old : CachedDate := { raw := Vector.replicate 7 0xFF#8, fields := decodeDate (Vector.replicate 7 0xFF#8) }
    (clientStep { engine := { State.reset with resetReq := true }, cache := some old }).map (·.cache) = some none ∧
      clientStep { engine := State.reset, cache := some old } = some { engine := State.reset, cache := some old } := by
  decide
theorem test_pseudo_operations :
    assemble given "rtc.reset" [] = some [sub 0x70600000#32] ∧
    assemble given "rtc.write_status" [.num 0x40] = some [.writeBuf 0 0x40#8, sub 0x71620000#32] ∧
    assemble given "rtc.read_date_time" [] = some [sub 0x77650000#32] ∧
    assemble given "rtc.read_time" [] = some [sub 0x73670000#32] ∧
    assemble given "gpio.rdn" [.symData, .num 6] = some [sub 0x60C40006#32] := by decide

/-! ### Witnesses: a concrete state and operands that meet the hypotheses of each statement that has some -/

theorem witness_DecodeOfEncode : (Instr.gpioReadN 0xFE#8 0xFFFF#16).encodable = true ∧ (Instr.rtcTxn 0x61#8 0xF#4).encodable = true ∧
    (∀ c n, Instr.gpioReadN 0xFE#8 0xFFFF#16 ≠ .rtcTxn c n) := ⟨rfl, rfl, by simp⟩
theorem witness_EncodeOfDecode : decode (.request 0x7F690000#32) = .ok (.rtcReadAlarm 0xF#4) := by decide
theorem witness_WordsDecodeByTheirRow : 0x100000FF#32 &&& 0xFFFFFF00#32 = 0x10000000#32 ∧
    0x40FEFFFF#32 &&& 0xFF010000#32 = 0x40000000#32 ∧ 0x7F690000#32 &&& 0xF0FFFFFF#32 = 0x70690000#32 ∧
    (0x70610000#32 &&& 0xF000FFFF#32 = 0x70000000#32 ∧
      0x70610000#32 ∉ [0x70600000#32, 0x71620000#32, 0x71630000#32, 0x77640000#32, 0x77650000#32] ∧
      0x70610000#32 &&& 0xF0FFFFFF#32 ∉ [0x70660000#32, 0x70670000#32, 0x70680000#32, 0x70690000#32]) := by decide
theorem witness_ReservedOps : ∀ w ∈ [0x00000000#32, 0x8FFFFFFF#32, 0xF0000000#32],
    (idle [sub w]).phase = .idle ∧ (idle [sub w]).resetReq = false ∧ (idle [sub w]).port = .present (.request w) :: [] ∧
      (w.extractLsb' 28 4 = 0x0#4 ∨ 8 ≤ (w.extractLsb' 28 4).toNat) := by
  simp [idle, sub, State.reset]
theorem witness_EncodeRefuses : ¬(0xF4#8 = 0xF5#8 ∨ 0xF4#8 = 0xF6#8 ∨ 0xF4#8 = 0xF7#8 ∨ 0xF4#8 = 0xF8#8) ∧
    4294967296 ≤ 4294967296 ∧ 65528 < tooLong.length ∧
    ([0x02#8].length ≤ 65528 ∧ [0x02#8].length ≠ 2) ∧ (4294967295 < 4294967296 ∧ ([] : List Byte).length ≤ 65528) := by
  simp [tooLong_length]
theorem witness_FrameLaws : encodeFrame 0xF5#8 0x62 [0x05#8, 0x00#8] =
    .ok [0x09#8, 0x00#8, 0xF5#8, 0x62#8, 0x00#8, 0x00#8, 0x00#8, 0x05#8, 0x00#8, 0x00#8, 0x00#8] := by decide
theorem witness_ParserAccepts : parseFrame [0x07#8, 0x00#8, 0xF5#8, 0x00#8, 0x00#8, 0x00#8, 0x00#8, 0x00#8, 0x00#8] =
    .ok (0xF5#8, 0, []) := by decide
theorem witness_ResponseDecoding : ([0x00#8, 0x00#8, 0x34#8] : List Byte).length ≠ 2 + 2 ∧
    [0xAA#8, 0xBB#8, 0x34#8, 0x12#8] = 0xAA#8 :: 0xBB#8 :: [0x34#8, 0x12#8] ∧ [0x34#8, 0x12#8].length = 2 := by decide
theorem witness_ResponseLength : encodeFrame 0xF6#8 0xFFFFFFFF [(0xFFFF#16).setWidth 8, (0xFFFF#16 >>> 8).setWidth 8] =
    .ok [0x09#8, 0x00#8, 0xF6#8, 0xFF#8, 0xFF#8, 0xFF#8, 0xFF#8, 0xFF#8, 0xFF#8, 0x00#8, 0x00#8] := by decide
theorem witness_ReservedFrameOpcodes : 0xF4#8 ∉ [0xF5#8, 0xF6#8, 0xF7#8, 0xF8#8] ∧ 0xF9#8 ∉ [0xF5#8, 0xF6#8, 0xF7#8, 0xF8#8] ∧
    byteAt [0x07#8, 0x00#8, 0xF9#8, 0x00#8, 0x00#8, 0x00#8, 0x00#8, 0x00#8, 0x00#8] 2 = 0xF9#8 ∧
    (idle [.present (.frame [0x07#8, 0x00#8, 0xF9#8])]).port = .present (.frame [0x07#8, 0x00#8, 0xF9#8]) :: [] := by decide
theorem witness_ChipSelect : .gpioWrite 0xC4#8 0x0007#16 ∈ sendCmdSeq 0xFF#8 ++ writeByteSeq 0xFF#8 ++ readByteSeq .result ∧
    (txnSeq 0x60#8 0 State.reset.buf)[38]? = some (.gpioWrite 0xC4#8 0x0001#16) ∧ (0x0001#16).getLsbD 2 = false := by decide
theorem witness_DataPhases : (7 ≤ 7 ∧ 0x65#8 ≠ 0x60#8 ∧ (0x65#8).getLsbD 0 = true ∧ (6 : Fin 7).val < 7 ∧ 6 < 7) ∧
    (7 ≤ 7 ∧ 0x64#8 ≠ 0x60#8 ∧ (0x64#8).getLsbD 0 = false ∧ (6 : Fin 7).val < 7 ∧ 31 < 32) := by decide
theorem witness_SequencesFit : planOf .rtcReadDate State.reset = some (txnPlan 0x65#8 7#4 State.reset) ∧
    (txnPlan 0x65#8 7#4 State.reset).ok = true ∧ planOf (.gpioRead16 0xFE#8) State.reset = some (planGpioRead16 0xFE#8) ∧
    (planGpioRead16 0xFE#8).ok = true := ⟨rfl, rfl, rfl, rfl⟩
theorem witness_AcceptedAtIdle : State.reset.phase = .idle ∧ dataLen State.reset.params 0x60#8 = some (0#4).toNat ∧
    dataLen State.reset.params 0x67#8 ≠ some (3#4).toNat ∧ given.nTime.map Fin.val = some (3#4).toNat ∧
    given.nAlarm.map Fin.val ≠ some (3#4).toNat ∧ given.nAlarm.map Fin.val = some (2#4).toNat := by decide
theorem witness_Submit : (idle [sub 0x60FE0010#32]).phase = .idle ∧ (idle [sub 0x60FE0010#32]).resetReq = false ∧
    (idle [sub 0x60FE0010#32]).port = .present (.request 0x60FE0010#32) :: [] := by decide
theorem witness_Submit_wordWF : wordWF State.reset.params 0x60FE0010#32 ∧ wordWF given 0x73670000#32 :=
  ⟨by simp [wordWF], by simp [wordWF, given]⟩
theorem witness_Submit_not_wordWF : ¬wordWF State.reset.params 0x60FE0011#32 ∧ ¬wordWF State.reset.params 0x73670000#32 :=
  ⟨by simp [wordWF], by simp [wordWF, State.reset]⟩
theorem witness_StepRuns : (busy 0x30000000#32 55#9).resetReq = false ∧ (busy 0x30000000#32 55#9).phase = .busy ∧
    decode (.request (busy 0x30000000#32 55#9).req) = .ok .bbReadByte ∧
    (idle [sub 0x30000000#32]).port = .present (.request 0x30000000#32) :: [] := by decide
theorem witness_GpioWrite : (busy 0x40FEFFFF#32 0#9).phase = .busy ∧ (busy 0x40FEFFFF#32 0#9).seqIdx = 0#9 ∧
    (0xFE#8).toNat % 2 = 0 ∧ exchangeOutcome 1 (busy 0x40FEFFFF#32 0#9 [bytes [0x00#8]]) = .ok [0x00#8] ∧
    exchangeOutcome 1 (busy 0x40FEFFFF#32 0#9 [closing []]) = .fail .closed := by decide
theorem witness_GpioRead : exchangeOutcome 4 (busy 0x50C40000#32 0#9 [bytes [1#8, 2#8, 3#8, 4#8]]) = .ok [1#8, 2#8, 3#8, 4#8] ∧
    exchangeOutcome 4 (busy 0x50C40000#32 0#9 [closing [1#8, 2#8, 3#8]]) = .fail .short := by decide
theorem witness_GpioReadN : (1 ≤ (0x0010#16).toNat ∧ (0x0010#16).toNat ≤ 16 ∧ 1 ≤ (0x0001#16).toNat) ∧
    exchangeOutcome ((0x0001#16).toNat + 2) (busy 0x60C40001#32 0#9 [bytes [1#8, 2#8, 3#8]]) = .ok [1#8, 2#8, 3#8] ∧
    exchangeOutcome ((0x0010#16).toNat + 2) (busy 0x60C40010#32 0#9 [bytes [1#8, 2#8, 3#8]]) = .fail .timeout := by decide
theorem witness_BitBangWriteSteps : (busy 0x200000FF#32 31#9).phase = .busy ∧ 7 < 8 ∧ 3 < 4 ∧
    (busy 0x200000FF#32 31#9).seqIdx = BitVec.ofNat 9 (4 * 7 + 3) ∧
    exchangeOutcome 1 (busy 0x200000FF#32 31#9 [bytes [0x00#8]]) = .ok [0x00#8] ∧
    exchangeOutcome 1 (busy 0x200000FF#32 31#9 [bytes []]) = .fail .timeout := by decide
theorem witness_BitBangReadSteps : (busy 0x30000000#32 55#9).seqIdx = BitVec.ofNat 9 (7 * 7 + 6) ∧
    (busy 0x30000000#32 5#9).seqIdx = BitVec.ofNat 9 (7 * 0 + 5) ∧
    exchangeOutcome 4 (busy 0x30000000#32 55#9 [bytes [0#8, 0#8, 2#8, 0#8]]) = .ok [0#8, 0#8, 2#8, 0#8] ∧
    exchangeOutcome 4 (busy 0x30000000#32 55#9 [closing [0#8]]) = .fail .short := by decide
theorem witness_BusyStep : planOf .bbReadByte (busy 0x30000000#32 55#9) = some planBbReadByte ∧ planBbReadByte.ok = true ∧
    planBbReadByte.seq[(busy 0x30000000#32 55#9).seqIdx.toNat]? = some (.gpioRead 0xC4#8 (.sample .result 7)) ∧
    exchangeOutcome 4 (busy 0x30000000#32 55#9 [bytes [0#8, 0#8, 2#8, 0#8]]) = .ok [0#8, 0#8, 2#8, 0#8] :=
  ⟨rfl, rfl, rfl, by decide⟩
/-- Every request instruction, BUSY at its first access, meets the hypotheses of BusyStepMakesExactlyOneExchange. -/
theorem witness_BusyStep_every_request :
    let s : State := { busy 0x30000000#32 0#9 with params := given }
    s.phase = .busy ∧
    ∀ i ∈ [Instr.bbSendCmd 0x65#8, .bbWriteByte 0x40#8, .bbReadByte, .gpioWrite16 0xC8#8 1#16, .gpioRead16 0xC4#8,
        .gpioReadN 0xC4#8 6#16, .rtcTxn 0x63#8 1#4, .rtcReset, .rtcWriteStatus, .rtcReadStatus, .rtcWriteDate, .rtcReadDate,
        .rtcWriteTime 3#4, .rtcReadTime 3#4, .rtcWriteAlarm 2#4, .rtcReadAlarm 2#4],
      (planOf i s).any fun p => p.ok && p.seq[s.seqIdx.toNat]?.isSome := by decide
/-- A RESET at its last access before Close (35), whose exchange times out; then a link that answers the Close. -/
theorem witness_ErrorBeforeClose :
    let s := busy 0x70600000#32 35#9 (bytes [] :: (closeSeq.map answerFor ++ []))
    let p := txnPlan 0x60#8 0#4 s
    isTransaction .rtcReset = true ∧ s.phase = .busy ∧ planOf .rtcReset s = some p ∧ p.ok = true ∧
      p.seq[s.seqIdx.toNat]? = some (.gpioWrite 0xC4#8 0x0005#16) ∧
      exchangeOutcome 1 s = .fail .timeout ∧ p.close = some 36 ∧ s.seqIdx.toNat < 36 ∧ s.resetReq = false ∧
      decode (.request s.req) = .ok .rtcReset ∧ s.answers = bytes [] :: (closeSeq.map answerFor ++ []) ∧
      AnswersFit (p.seq.drop 36) (closeSeq.map answerFor) :=
  ⟨rfl, rfl, rfl, rfl, rfl, by decide, rfl, by decide, rfl, by decide, rfl, answersFit_map closeSeq⟩
theorem witness_ErrorInClose :
    let s := busy 0x70600000#32 36#9 [closing []]
    let p := txnPlan 0x60#8 0#4 s
    isTransaction .rtcReset = true ∧ s.phase = .busy ∧ planOf .rtcReset s = some p ∧ p.ok = true ∧
      p.seq[s.seqIdx.toNat]? = some (.gpioWrite 0xC4#8 0x0001#16) ∧ exchangeOutcome 1 s = .fail .closed ∧
      p.close = some 36 ∧ 36 ≤ s.seqIdx.toNat :=
  ⟨rfl, rfl, rfl, rfl, rfl, by decide, rfl, by decide⟩
theorem witness_ErrorOutside :
    let s := busy 0x30000000#32 55#9 [closing [0x00#8]]
    isTransaction .bbReadByte = false ∧ s.phase = .busy ∧ planOf .bbReadByte s = some planBbReadByte ∧ planBbReadByte.ok = true ∧
      planBbReadByte.seq[s.seqIdx.toNat]? = some (.gpioRead 0xC4#8 (.sample .result 7)) ∧
      exchangeOutcome 4 s = .fail .short :=
  ⟨rfl, rfl, rfl, rfl, rfl, by decide⟩
/-- A READ_STATUS at its last sample (access 92): the bit clause; the same at its Control write (36): BUF unchanged. -/
theorem witness_TransactionSteps :
    let s := busy 0x71630000#32 92#9 [bytes [0#8, 0#8, 2#8, 0#8]]
    let s' := busy 0x71630000#32 36#9 [bytes [0#8]]
    isTransaction .rtcReadStatus = true ∧ (txnPlan 0x63#8 1#4 s).ok = true ∧
      (txnPlan 0x63#8 1#4 s).seq[s.seqIdx.toNat]? = some (.gpioRead 0xC4#8 (.sample (.buf 0) 7)) ∧
      exchangeOutcome 4 s = .ok [0#8, 0#8, 2#8, 0#8] ∧ (∃ t, exec .rtcReadStatus s = .next t) ∧
      (txnPlan 0x63#8 1#4 s').seq[s'.seqIdx.toNat]? = some (.gpioWrite 0xC6#8 0x0005#16) ∧
      (txnPlan 0x62#8 1#4 s).clears = 0 :=
  ⟨rfl, rfl, rfl, by decide, ⟨_, rfl⟩, rfl, rfl⟩
theorem witness_RequestRuns :
    let s := idle [sub 0x50C40000#32] ([bytes [0#8, 0#8, 7#8, 0#8]] ++ [])
    s.phase = .idle ∧ s.resetReq = false ∧ s.port = .present (.request 0x50C40000#32) :: [] ∧ s.rx = [] ∧
      decode (.request 0x50C40000#32) = .ok (.gpioRead16 0xC4#8) ∧ planOf (.gpioRead16 0xC4#8) s = some (planGpioRead16 0xC4#8) ∧
      (planGpioRead16 0xC4#8).ok = true ∧ s.answers = [bytes [0#8, 0#8, 7#8, 0#8]] ++ [] ∧
      AnswersFit (planGpioRead16 0xC4#8).seq [bytes [0#8, 0#8, 7#8, 0#8]] :=
  ⟨rfl, rfl, rfl, rfl, by decide, rfl, rfl, rfl, .cons rfl .nil⟩
theorem witness_ReadByteRun :
    let as := (readByteSeq .result).map answerFor
    let s := idle [sub 0x30000000#32] (as ++ [])
    s.phase = .idle ∧ s.resetReq = false ∧ s.port = .present (.request 0x30000000#32) :: [] ∧ s.rx = [] ∧
      s.answers = as ++ [] ∧ AnswersFit (readByteSeq .result) as ∧ as[7 * 7 + 6]? = some (bytes [2#8, 2#8, 2#8, 2#8]) :=
  ⟨rfl, rfl, rfl, rfl, rfl, answersFit_map _, rfl⟩
set_option maxRecDepth 8000 in
theorem witness_ReadTransactionRun :
    let as := (txnSeq 0x65#8 7 State.reset.buf).map answerFor
    let s := idle [sub 0x77650000#32] (as ++ [])
    s.phase = .idle ∧ s.resetReq = false ∧ s.rx = [] ∧ (0x65#8).getLsbD 0 = true ∧
      dataLen s.params 0x65#8 = some (7#4).toNat ∧
      s.port = .present (.request (0x70000000#32 ||| (7#4).setWidth 32 <<< 24 ||| (0x65#8).setWidth 32 <<< 16)) :: [] ∧
      s.answers = as ++ [] ∧ AnswersFit (txnSeq 0x65#8 (7#4).toNat s.buf) as ∧
      as[37 + 56 * (6 : Fin 7).val + 7 * 7 + 6]? = some (bytes [2#8, 2#8, 2#8, 2#8]) :=
  ⟨rfl, rfl, rfl, rfl, rfl, by decide, rfl, answersFit_map _, by decide⟩
theorem witness_TransactionLines :
    let s0 := idle [sub 0x70600000#32]
    let p := txnPlan 0x60#8 0#4 s0
    let s := idle [sub 0x70600000#32] (p.seq.map answerFor ++ [])
    s.phase = .idle ∧ s.resetReq = false ∧ s.port = .present (.request 0x70600000#32) :: [] ∧ s.rx = [] ∧
      decode (.request 0x70600000#32) = .ok .rtcReset ∧ isTransaction .rtcReset = true ∧ planOf .rtcReset s = some p ∧
      p.ok = true ∧ s.answers = p.seq.map answerFor ++ [] ∧ AnswersFit p.seq (p.seq.map answerFor) :=
  ⟨rfl, rfl, rfl, rfl, by decide, rfl, rfl, rfl, rfl, answersFit_map _⟩
/-- The invariant holds of a running request at its last access. -/
theorem witness_EngineInv : EngineInv (busy 0x30000000#32 55#9 [bytes [0#8, 0#8, 2#8, 0#8]]) ∧
    (busy 0x30000000#32 55#9 [bytes [0#8, 0#8, 2#8, 0#8]]).phase = .busy ∧
    (busy 0x30000000#32 55#9 [bytes [0#8, 0#8, 2#8, 0#8]]).resetReq = false ∧
    ∃ t, step (busy 0x30000000#32 55#9 [bytes [0#8, 0#8, 2#8, 0#8]]) = .next t :=
  ⟨And.intro (by decide) (And.intro nofun fun _ =>
      ⟨rfl, by decide, .bbReadByte, planBbReadByte, by decide, rfl, rfl, by decide⟩), rfl, rfl, ⟨_, rfl⟩⟩
theorem witness_ExchangeOutcomes : (4 ≤ ([0#8] ++ [1#8, 2#8, 3#8] : List Byte).length) ∧
    (([] ++ [] : List Byte).length < 1 ∧ (nextAnswer (busy 0x30000000#32 0#9 [bytes []])).ending = .timeout) ∧
    (0 < 1 ∧ ([] ++ [] : List Byte) = [] ∧ (nextAnswer (busy 0x30000000#32 0#9 [closing []])).ending = .closed) ∧
    (1 ≤ [0#8, 0#8, 0#8].length ∧ [0#8, 0#8, 0#8].length < 4) := by decide
theorem witness_FrameWrites : ([0x07#8, 0x00#8] : List Byte).length ≤ 65528 ∧ (0x62#32).toNat = 0x62 ∧
    exchangeOutcome 1 (idle [] [bytes [0x00#8]]) = .ok [0x00#8] ∧ exchangeOutcome 1 (idle [] [closing []]) = .fail .closed ∧
    (0x62#32).toNat ≠ 0x63 ∧ ([1#8, 2#8, 3#8] : List Byte).length ≠ 2 := by decide
theorem witness_Oversized : 65528 < tooLong.length := by simp [tooLong_length]
theorem witness_PortHeld : (busy 0x40C80001#32 0#9 [bytes [0x00#8]]).phase = .busy ∧
    (busy 0x40C80001#32 0#9 [bytes [0x00#8]]).resetReq = false ∧
    ∃ t, step (busy 0x40C80001#32 0#9 [bytes [0x00#8]]) = .next t := ⟨rfl, rfl, ⟨_, rfl⟩⟩
theorem witness_PortOperations : (idle [.writeBuf 6 0xFF#8]).phase = .idle ∧ (idle [.writeBuf 6 0xFF#8]).resetReq = false ∧
    (idle [.writeBuf 6 0xFF#8]).port = .writeBuf 6 0xFF#8 :: [] ∧ (idle []).port = [] := by decide
theorem witness_Reset : { busy 0x77650000#32 400#9 with resetReq := true }.resetReq = true ∧
    ({ engine := { busy 0x77650000#32 400#9 with resetReq := true }, cache := none } : ClientState).engine =
      { busy 0x77650000#32 400#9 with resetReq := true } := ⟨rfl, rfl⟩
theorem witness_RunningRequest : (busy 0x40C80001#32 0#9 [bytes [0x00#8]]).phase = .busy ∧
    (busy 0x40C80001#32 0#9 [bytes [0x00#8]]).resetReq = false ∧
    decode (.request (busy 0x40C80001#32 0#9 [bytes [0x00#8]]).req) = .ok (.gpioWrite16 0xC8#8 0x0001#16) ∧
    planOf (.gpioWrite16 0xC8#8 0x0001#16) (busy 0x40C80001#32 0#9 [bytes [0x00#8]]) =
      some (planGpioWrite16 0xC8#8 0x0001#16) := ⟨rfl, rfl, by decide, rfl⟩
/-- The same request at its second access goes on running: the index rises within the request. -/
theorem witness_GoesOnRunning : (next (step (busy 0x30000000#32 0#9 [bytes [0x00#8]]))).phase = .busy ∧
    (next (step (busy 0x30000000#32 0#9 [bytes [0x00#8]]))).seqIdx = 1#9 := by decide
theorem witness_HistoryOk :
    HistoryOk { busy 0x40C80001#32 0#9 [bytes [0x00#8]] with
      history := [⟨[0x07#8, 0x00#8, 0xF5#8, 0x00#8, 0x00#8, 0x00#8, 0x00#8, 0x00#8, 0x00#8], 1, .ok [0xAA#8]⟩] } := by
  intro r hr
  simp only [List.mem_singleton] at hr
  subst hr
  exact ⟨⟨0xF5#8, 0, [], by decide⟩, by decide, fun rs h => by cases h; rfl, fun h => by cases h⟩
theorem witness_BadDates : ∃ f ∈ dateFields,
    ({ year := 99, month := 13, day := 1, weekday := 0, hour := 0, minute := 0, second := 0 } : DateTime).field f < f.least ∨
      f.greatest < ({ year := 99, month := 13, day := 1, weekday := 0, hour := 0, minute := 0, second := 0 } : DateTime).field f :=
  ⟨.month, by decide, by decide⟩
theorem witness_Bcd : ((0 : Int) ≤ 99 ∧ (99 : Int) ≤ 99) ∧ ((-1 : Int) < 0 ∨ (99 : Int) < -1) ∧ ((0 : Int) ≤ 23 ∧ (23 : Int) ≤ 23) ∧
    (9 < (0x0A#8).toNat % 16 ∧ 9 < (0xA0#8).toNat / 16) := by decide
theorem witness_Snapshot : (List.replicate 15 0x00#8).length ≠ 16 := by decide

end Sys2Proof.Tests
end

section
/-! The request decoder, as far as the engine's step reads it: the word in REQ, and that it always has a plan. -/

namespace Sys2Proof.Machine

/-- A request word is its four fields, put together (spec R90). -/
theorem requestWord_fields (w : Word) : requestWord (opField w) (nField w) (aField w) (vField w) = w := by
  unfold requestWord opField nField aField vField
  rw [BitVec.extractLsb'_append_extractLsb'_eq_extractLsb' (by rfl),
    BitVec.extractLsb'_append_extractLsb'_eq_extractLsb' (by rfl),
    BitVec.extractLsb'_append_extractLsb'_eq_extractLsb' (by rfl)]
  exact BitVec.extractLsb'_eq_self

/-- A request word is the one its four fields spell (spec R90). -/
theorem requestWord_eq {w : Word} {op n : BitVec 4} {a : Byte} {v : Half} (hop : opField w = op) (hn : nField w = n)
    (ha : aField w = a) (hv : vField w = v) : requestWord op n a v = w := by
  rw [← hop, ← hn, ← ha, ← hv, requestWord_fields]

/-- A V field with `V[15:8] = 0` is its low byte (spec R93). -/
theorem vField_of_byteOnly {w : Word} (h : byteOnly (vField w) = true) :
    (w.extractLsb' 0 8).setWidth 16 = vField w := by
  have hv : (vField w).toNat / 256 % 256 = 0 := by
    simpa [byteOnly, ← BitVec.toNat_inj, Nat.shiftRight_eq_div_pow] using h
  have hlt : (vField w).toNat < 65536 := (vField w).isLt
  have hw : (vField w).toNat = w.toNat % 65536 := by simp [vField]
  apply BitVec.eq_of_toNat_eq
  simp only [BitVec.toNat_setWidth, BitVec.extractLsb'_toNat, Nat.shiftRight_zero]
  omega

/-- A word of OP 0x1 or 0x2 decodes exactly when all but its byte is zero (spec R93). -/
theorem decodeByte_eq_ok {w : Word} {i j : Instr} :
    (if nField w ≠ 0#4 ∨ aField w ≠ 0#8 ∨ byteOnly (vField w) = false then Except.error Reject.nonzeroField else .ok i) =
        .ok j ↔
      (nField w = 0#4 ∧ aField w = 0#8 ∧ byteOnly (vField w) = true) ∧ i = j := by
  split_ifs with hbad
  · exact ⟨nofun, fun ⟨⟨hn, ha, hv⟩, _⟩ => by simp [hn, ha, hv] at hbad⟩
  · simp_all

/-- A GPIO word decodes exactly when its fixed fields are zero, to its row's instruction (spec R93). -/
theorem decodeGpio_eq_ok {w : Word} {i j : Instr} :
    decodeGpio w i = .ok j ↔ nField w = 0#4 ∧ evenAddr (aField w) = true ∧ i = j := by
  unfold decodeGpio
  split_ifs <;> simp_all

/-- The nine commands' own rows encode to the words of the generic transaction (spec R188, log 10). -/
theorem encode_decodeTxn (c : Byte) (n : BitVec 4) :
    encode (decodeTxn c n) = .request (requestWord 0x7#4 n c 0#16) := by
  unfold decodeTxn
  repeat' split
  all_goals simp_all [encode]

/-- A request word that decodes is the encoding of its instruction (spec R90-R93). -/
theorem encode_of_decodeRequest {w : Word} {i : Instr} (h : decodeRequest w = .ok i) : encode i = .request w := by
  unfold decodeRequest at h
  split at h
  case isTrue hop =>
    obtain ⟨⟨hn, ha, hv⟩, rfl⟩ := decodeByte_eq_ok.mp h
    exact congrArg Code.request (requestWord_eq hop hn ha (vField_of_byteOnly hv).symm)
  split at h
  case isTrue hop =>
    obtain ⟨⟨hn, ha, hv⟩, rfl⟩ := decodeByte_eq_ok.mp h
    exact congrArg Code.request (requestWord_eq hop hn ha (vField_of_byteOnly hv).symm)
  split at h
  case isTrue hop =>
    split at h
    · cases h
    next hzero =>
      cases h
      obtain ⟨hn, ha, hv⟩ : nField w = 0#4 ∧ aField w = 0#8 ∧ vField w = 0#16 := by simpa using hzero
      exact congrArg Code.request (requestWord_eq hop hn ha hv)
  split at h
  case isTrue hop =>
    obtain ⟨hn, -, rfl⟩ := decodeGpio_eq_ok.mp h
    exact congrArg Code.request (requestWord_eq hop hn rfl rfl)
  split at h
  case isTrue hop =>
    split at h
    · cases h
    next hv =>
      obtain ⟨hn, -, rfl⟩ := decodeGpio_eq_ok.mp h
      exact congrArg Code.request (requestWord_eq hop hn rfl (not_not.mp hv))
  split at h
  case isTrue hop =>
    obtain ⟨hn, -, rfl⟩ := decodeGpio_eq_ok.mp h
    exact congrArg Code.request (requestWord_eq hop hn rfl rfl)
  split at h
  case isTrue hop =>
    split at h
    · cases h
    next hv =>
      cases h
      rw [encode_decodeTxn, requestWord_eq hop rfl rfl (not_not.mp hv)]
  cases h

/-- An instruction whose code is a request word has a plan, and the plan's word is that code. -/
theorem planOf_of_encode {i : Instr} {w : Word} (h : encode i = .request w) (s : State) :
    ∃ p, planOf i s = some p ∧ p.word = w := by
  cases i <;> cases h <;> exact ⟨_, rfl, rfl⟩

/-- A request word that decodes denotes a plan with the word itself (spec R22, R23). -/
theorem planOf_of_decode {w : Word} {i : Instr} (h : decode (.request w) = .ok i) (s : State) :
    ∃ p, planOf i s = some p ∧ p.word = w :=
  planOf_of_encode (encode_of_decodeRequest h) s

/-- A frame decodes to a frame instruction, which has no plan (spec R86). -/
theorem planOf_of_decode_frame {bs : List Byte} {i : Instr} (h : decode (.frame bs) = .ok i) (s : State) :
    planOf i s = none := by
  simp only [decode, decodeFrame] at h
  split at h <;> cases h
  unfold frameInstr
  split_ifs <;> rfl

end Sys2Proof.Machine
end

section
/-! The plans: how long a sequence is, and that a running request does not change its own plan (spec R24; log 18). -/

namespace Sys2Proof.Machine

/-- The two shapes of a plan: a request of the GPIO proxy or the bit-bang engine, whose plan reads no state, or the
transaction of some command byte and length (spec R144-R166, R180). -/
theorem planOf_cases {i : Instr} {s : State} {p : Plan} (h : planOf i s = some p) :
    (isTransaction i = false ∧ p.close = none ∧ p.clears = 0 ∧ 1 ≤ p.seq.length ∧ p.seq.length ≤ 56 ∧
      ∀ s', planOf i s' = some p) ∨
    (isTransaction i = true ∧ ∃ c n, p = txnPlan c n s ∧ ∀ s', planOf i s' = some (txnPlan c n s')) := by
  cases i with
  | bbSendCmd | bbWriteByte | bbReadByte | gpioWrite16 | gpioRead16 | gpioReadN =>
    cases h
    refine .inl ⟨rfl, rfl, rfl, ?_, ?_, fun _ => rfl⟩ <;>
      simp [planBbSendCmd, planBbWriteByte, planBbReadByte, planGpioWrite16, planGpioRead16, planGpioReadN]
  | rtcTxn | rtcReset | rtcWriteStatus | rtcReadStatus | rtcWriteDate | rtcReadDate | rtcWriteTime | rtcReadTime
  | rtcWriteAlarm | rtcReadAlarm =>
    cases h
    exact .inr ⟨rfl, _, _, rfl, fun _ => rfl⟩
  | frWriteRom | frReadRom | frWriteRam | frReadRam => cases h

/-- A data phase has at most seven bytes of 56 accesses, and one direction change (spec R184, R185). -/
theorem dataSeq_length_le (c : Byte) (n : Nat) (buf : Vector Byte 7) : (dataSeq c n buf).length ≤ 393 := by
  unfold dataSeq
  split_ifs <;> simp [List.length_flatMap] <;> omega

/-- A transaction has Open, Command and Close, and at most 434 accesses (spec R25, R181). -/
theorem txnSeq_length_le (c : Byte) (n : Nat) (buf : Vector Byte 7) : (txnSeq c n buf).length ≤ 434 := by
  have := dataSeq_length_le c n buf
  simp [txnSeq, txnBody]
  omega

/-- Every plan has an access, SEQ_IDX can count its accesses, and a transaction's Close is its last five (spec R24, R186). -/
theorem planOf_bounds {i : Instr} {s : State} {p : Plan} (h : planOf i s = some p) :
    1 ≤ p.seq.length ∧ p.seq.length ≤ 434 ∧ (∀ ci, p.close = some ci → ci + 5 = p.seq.length) ∧
      p.close.isSome = isTransaction i := by
  rcases planOf_cases h with ⟨ht, hclose, -, hpos, hle, -⟩ | ⟨ht, c, n, rfl, -⟩
  · exact ⟨hpos, by omega, by simp [hclose], by simp [hclose, ht]⟩
  · have hlen : (txnPlan c n s).seq.length = (txnBody c n.toNat s.buf).length + 5 := txnSeq_length _ _ _
    refine ⟨by omega, txnSeq_length_le _ _ _, ?_, ht.symm⟩
    rintro ci ⟨⟩
    exact hlen.symm

/-- A read command's transaction reads no byte of BUF: it only samples into it (spec R185). -/
theorem txnPlan_of_read {c : Byte} (hc : isReadCommand c = true) (n : BitVec 4) {s s' : State}
    (hp : s'.params = s.params) : txnPlan c n s' = txnPlan c n s := by
  simp [txnPlan, txnSeq, txnBody, dataSeq, hc, hp]

theorem isWriteAccess_of_mem_cmdBit {acc : Access} {b : Bool} (h : acc ∈ cmdBit b) : isWriteAccess acc = true := by
  rcases mem_cmdBit h with rfl | rfl <;> rfl

/-- Any transaction but a read command's makes writes only (spec R184). -/
theorem isWriteAccess_of_mem_txnSeq {c : Byte} (hc : isReadCommand c = false) {n : Nat} {buf : Vector Byte 7} {acc : Access}
    (h : acc ∈ txnSeq c n buf) : isWriteAccess acc = true := by
  have hopen : ∀ acc ∈ openSeq, isWriteAccess acc = true := by decide
  have hclose : ∀ acc ∈ closeSeq, isWriteAccess acc = true := by decide
  have hdata : ∀ acc ∈ dataSeq c n buf, isWriteAccess acc = true := by
    intro acc hacc
    simp only [dataSeq, hc, Bool.false_eq_true, if_false] at hacc
    split_ifs at hacc
    · cases hacc
    · obtain ⟨j, -, hj⟩ := List.mem_flatMap.mp hacc
      obtain ⟨k, -, hk⟩ := List.mem_flatMap.mp hj
      exact isWriteAccess_of_mem_cmdBit hk
  simp only [txnSeq, txnBody, List.mem_append] at h
  rcases h with ((h | h) | h) | h
  · exact hopen _ h
  · obtain ⟨k, -, hk⟩ := List.mem_flatMap.mp h
    exact isWriteAccess_of_mem_cmdBit hk
  · exact hdata _ h
  · exact hclose _ h

/-- A request never both reads BUF into its sequence and changes BUF: its plan depends on the parameters only, or it clears
nothing and makes writes only. -/
theorem planOf_ignores_buf_or_writes_only {i : Instr} {s : State} {p : Plan} (h : planOf i s = some p) :
    (∀ s' : State, s'.params = s.params → planOf i s' = some p) ∨
      (p.clears = 0 ∧ ∀ acc ∈ p.seq, isWriteAccess acc = true) := by
  rcases planOf_cases h with ⟨-, -, -, -, -, hall⟩ | ⟨-, c, n, rfl, hall⟩
  · exact .inl fun s' _ => hall s'
  · cases hc : isReadCommand c with
    | true => exact .inl fun s' hs' => by rw [hall, txnPlan_of_read hc n hs']
    | false => exact .inr ⟨by simp [txnPlan, hc], fun acc => isWriteAccess_of_mem_txnSeq hc⟩

@[simp] theorem clearBuf_zero (buf : Vector Byte 7) : clearBuf 0 buf = buf := by
  ext k hk
  simp [clearBuf]

/-- A write access leaves BUF as it is (spec R140). -/
theorem afterAccess_buf_of_write {acc : Access} (h : isWriteAccess acc = true) (s : State) :
    (afterAccess acc s).buf = s.buf := by
  cases acc with
  | gpioWrite a v => rfl
  | gpioRead | gpioReadN => cases h

/-- Acceptance leaves the accepted request's plan as it is (spec R23, R92). -/
theorem planOf_accept {i : Instr} {s : State} {p : Plan} (h : planOf i s = some p) :
    planOf i (accept p s) = some p := by
  rcases planOf_ignores_buf_or_writes_only h with hall | ⟨hclears, -⟩
  · exact hall _ rfl
  · rw [← h]
    exact planOf_congr i rfl (by simp [hclears])

/-- An access of a request leaves the request's plan as it is (spec R23). -/
theorem planOf_afterAccess {i : Instr} {s : State} {p : Plan} {acc : Access} (h : planOf i s = some p)
    (hacc : acc ∈ p.seq) : planOf i (afterAccess acc s) = some p := by
  rcases planOf_ignores_buf_or_writes_only h with hall | ⟨-, hwrite⟩
  · exact hall _ (afterAccess_params acc s)
  · rw [← h]
    exact planOf_congr i (afterAccess_params acc s) (afterAccess_buf_of_write (hwrite acc hacc) s)

end Sys2Proof.Machine
end

section
/-! The engine step: what it leaves unchanged, how the index moves, and the step of a running request. -/

namespace Sys2Proof.Machine

/-- After the access, an engine step sets PHASE, SEQ_IDX, ERR and DONE only (spec R143). -/
theorem engineStep_shape (p : Plan) (acc : Access) (s : State) :
    ∃ ph k e d, engineStep p acc s = { afterAccess acc s with phase := ph, seqIdx := k, err := e, done := d } := by
  cases hout : exchangeOutcome (accessCount acc) s with
  | ok rs =>
    rw [engineStep_ok hout]
    rcases advance_cases p (afterAccess acc s) with ⟨-, h⟩ | ⟨-, h⟩ <;> rw [h] <;> exact ⟨_, _, _, _, rfl⟩
  | fail c =>
    rw [engineStep_fail hout]
    rcases takeError_cases p c (afterAccess acc s) with ⟨ci, -, -, h⟩ | ⟨-, h⟩ <;> rw [h] <;> exact ⟨_, _, _, _, rfl⟩

section
variable (p : Plan) (acc : Access) (s : State)

@[simp] theorem engineStep_req : (engineStep p acc s).req = s.req := by
  obtain ⟨_, _, _, _, h⟩ := engineStep_shape p acc s; simp [h]
@[simp] theorem engineStep_buf : (engineStep p acc s).buf = (afterAccess acc s).buf := by
  obtain ⟨_, _, _, _, h⟩ := engineStep_shape p acc s; simp [h]
@[simp] theorem engineStep_history : (engineStep p acc s).history =
    s.history ++ [⟨accessFrame acc, accessCount acc, exchangeOutcome (accessCount acc) s⟩] := by
  obtain ⟨_, _, _, _, h⟩ := engineStep_shape p acc s; simp [h]
@[simp] theorem engineStep_port : (engineStep p acc s).port = s.port := by
  obtain ⟨_, _, _, _, h⟩ := engineStep_shape p acc s; simp [h]
@[simp] theorem engineStep_params : (engineStep p acc s).params = s.params := by
  obtain ⟨_, _, _, _, h⟩ := engineStep_shape p acc s; simp [h]
end

/-- A request's engine step leaves the request's plan as it is (spec R23; log 18). -/
theorem planOf_engineStep {i : Instr} {s : State} {p : Plan} {acc : Access} (h : planOf i s = some p)
    (hacc : acc ∈ p.seq) : planOf i (engineStep p acc s) = some p := by
  rw [← planOf_afterAccess h hacc]
  exact planOf_congr i (by simp) (by simp)

/-- ERR after an engine step: as before, or the error of the failed exchange raised (spec R261). -/
theorem engineStep_err (p : Plan) (acc : Access) (s : State) :
    (engineStep p acc s).err = s.err ∨ ∃ c, (engineStep p acc s).err = raiseErr s.err (failErr c) := by
  cases hout : exchangeOutcome (accessCount acc) s with
  | ok rs =>
    rw [engineStep_ok hout]
    rcases advance_cases p (afterAccess acc s) with ⟨-, h⟩ | ⟨-, h⟩ <;> exact .inl (by simp [h])
  | fail c =>
    rw [engineStep_fail hout]
    rcases takeError_cases p c (afterAccess acc s) with ⟨ci, -, -, h⟩ | ⟨-, h⟩ <;> exact .inr ⟨c, by simp [h]⟩

/-- Raising a link error keeps ERR legal and off REFUSED (spec R260, R261, R263). -/
theorem raiseErr_failErr_legal {e : BitVec 4} (h : LegalErr e) (hne : e ≠ 5#4) (c : LinkFail) :
    LegalErr (raiseErr e (failErr c)) ∧ raiseErr e (failErr c) ≠ 5#4 := by
  unfold raiseErr
  split_ifs
  · cases c <;> decide
  · exact ⟨h, hne⟩

/-- SEQ_IDX has room for every index of a sequence and its length (spec R24). -/
theorem seqIdx_succ {k : BitVec 9} {n : Nat} (hk : k.toNat < n) (hn : n ≤ 434) : (k + 1#9).toNat = k.toNat + 1 := by
  rw [BitVec.toNat_add, BitVec.toNat_ofNat]
  omega

/-- An engine step ends the request, or goes on at a later access of it (spec R24, R25, R266-R268). -/
theorem engineStep_ends_or_goes_on {p : Plan} {s : State} (acc : Access) (hidx : s.seqIdx.toNat < p.seq.length)
    (hlen : p.seq.length ≤ 434) (hclose : ∀ ci, p.close = some ci → ci + 5 = p.seq.length) :
    ((engineStep p acc s).phase = .idle ∧ (engineStep p acc s).done = true ∧
      s.seqIdx.toNat ≤ (engineStep p acc s).seqIdx.toNat) ∨
    ((engineStep p acc s).phase = s.phase ∧ (engineStep p acc s).done = s.done ∧
      s.seqIdx.toNat < (engineStep p acc s).seqIdx.toNat ∧ (engineStep p acc s).seqIdx.toNat < p.seq.length) := by
  have hsucc := seqIdx_succ hidx hlen
  cases hout : exchangeOutcome (accessCount acc) s with
  | ok rs =>
    rw [engineStep_ok hout]
    rcases advance_cases p (afterAccess acc s) with ⟨-, h⟩ | ⟨hne, h⟩ <;> rw [h]
    · exact .inl ⟨rfl, rfl, by simp [hsucc]⟩
    · rw [afterAccess_seqIdx] at hne
      exact .inr ⟨by simp, by simp, by simp [hsucc], by simp [hsucc]; omega⟩
  | fail c =>
    rw [engineStep_fail hout]
    rcases takeError_cases p c (afterAccess acc s) with ⟨ci, hci, hlt, h⟩ | ⟨-, h⟩ <;> rw [h]
    · have hfit := hclose ci hci
      have hval : (BitVec.ofNat 9 ci).toNat = ci := by rw [BitVec.toNat_ofNat]; omega
      rw [afterAccess_seqIdx] at hlt
      exact .inr ⟨by simp, by simp, by simp only [hval, hlt], by simp only [hval]; omega⟩
    · exact .inl ⟨rfl, rfl, by simp⟩

/-- The step of a running request is one engine step, at the access SEQ_IDX names (spec R143). -/
theorem step_busy {s : State} {i : Instr} {p : Plan} {acc : Access} (hphase : s.phase = .busy) (hreset : s.resetReq = false)
    (hdec : decode (.request s.req) = .ok i) (hplan : planOf i s = some p) (hok : p.ok = true)
    (hacc : p.seq[s.seqIdx.toNat]? = some acc) : step s = .next (engineStep p acc s) := by
  have hfetch : fetch s = some (.request s.req, s) := by simp [fetch, hphase, hreset]
  simp only [step, hfetch, hdec]
  rw [exec_eq_request hplan, request_busy hphase hok hacc]

/-- The only way a step while BUSY can answer a next state, with no reset asked for (spec R92, R143). -/
theorem step_busy_cases {s t : State} (hphase : s.phase = .busy) (hreset : s.resetReq = false) (h : step s = .next t) :
    ∃ i p acc, decode (.request s.req) = .ok i ∧ planOf i s = some p ∧ p.ok = true ∧
      p.seq[s.seqIdx.toNat]? = some acc ∧ t = engineStep p acc s := by
  have hfetch : fetch s = some (.request s.req, s) := by simp [fetch, hphase, hreset]
  rcases step_cases h with ⟨hnone, -⟩ | ⟨c, s', i, hf, hdec, hexec⟩ | ⟨c, s', why, hf, -, hturn⟩
  · rw [hfetch] at hnone
    cases hnone
  · rw [hfetch] at hf
    cases hf
    obtain ⟨p, hplan, -⟩ := planOf_of_decode hdec s
    rw [exec_eq_request hplan] at hexec
    rcases request_next_cases hexec with ⟨hidle, -⟩ | ⟨-, hok, acc, hacc, rfl⟩
    · nomatch hidle.symm.trans hphase
    · exact ⟨i, p, acc, hdec, hplan, hok, hacc, rfl⟩
  · rw [hfetch] at hf
    cases hf
    obtain ⟨hidle, -⟩ := turnAway_cases hturn
    nomatch hidle.symm.trans hphase

theorem frameWrite_giveBack (op : Byte) (addr : Word) (payload : List Byte) (s : State) :
    (∃ r, frameWrite op addr payload s = giveBack r s) ∨
      (∃ f r, frameWrite op addr payload s = giveBack r (afterTransact f s)) :=
  (frameWrite_cases op addr payload s).imp (fun ⟨_, _, h⟩ => ⟨_, h⟩) (fun ⟨f, _, h⟩ => ⟨f, _, h⟩)

theorem frameRead_giveBack (op : Byte) (addr : Word) (len : Half) (s : State) :
    (∃ r, frameRead op addr len s = giveBack r s) ∨
      (∃ f r, frameRead op addr len s = giveBack r (afterTransact f s)) :=
  (frameRead_cases op addr len s).imp (fun ⟨_, _, h⟩ => ⟨_, h⟩) (fun ⟨f, _, h⟩ => ⟨f, _, h⟩)

/-- A direct call of the codec makes at most one exchange, and changes what is returned and the shadow (spec R36, R117). -/
theorem exec_frame_cases {i : Instr} {s t : State} (hplan : planOf i s = none) (h : exec i s = .next t) :
    ∃ u sh, t = { u with shadow := sh } ∧ ((∃ r, u = giveBack r s) ∨ (∃ f r, u = giveBack r (afterTransact f s))) := by
  cases i with
  | frWriteRom addr payload =>
    cases h
    exact ⟨frameWrite opWriteRom addr payload s, _, rfl, frameWrite_giveBack ..⟩
  | frWriteRam addr payload =>
    cases h
    exact ⟨frameWrite opWriteRam addr payload s, _, rfl, frameWrite_giveBack ..⟩
  | frReadRom addr len =>
    cases h
    exact ⟨frameRead opReadRom addr len s, _, rfl, frameRead_giveBack ..⟩
  | frReadRam addr len =>
    cases h
    exact ⟨frameRead opReadRam addr len s, _, rfl, frameRead_giveBack ..⟩
  | _ => cases hplan

/-- What one step did to reach its next state: one constructor per event of spec R21, R31, R92, R143, R265 and R290. -/
inductive StepTo (s : State) : State → Prop
  /-- The engine was reset. -/
  | reset : StepTo s (engineReset s)
  /-- At IDLE nothing happened. -/
  | wait : s.phase = .idle → StepTo s s
  /-- At IDLE a byte of BUF was written by the client. -/
  | writeBuf (j : Fin 7) (b : Byte) (rest : List PortOp) : s.phase = .idle → StepTo s (writeBuf j b { s with port := rest })
  /-- At IDLE the client submitted a word that is a request. -/
  | submit (rest : List PortOp) (i : Instr) (p : Plan) : s.phase = .idle → decode (.request p.word) = .ok i →
      planOf i s = some p → StepTo s (submit p { s with port := rest })
  /-- At IDLE the client called the codec directly. -/
  | call (rest : List PortOp) (i : Instr) (t : State) : s.phase = .idle → planOf i s = none →
      exec i { s with port := rest } = .next t → StepTo s t
  /-- At IDLE the client submitted a word that is no request. -/
  | refuse (rest : List PortOp) (w : Word) : s.phase = .idle → StepTo s (refuseWord w { s with port := rest })
  /-- At IDLE the client presented bytes that are no frame. -/
  | reject (rest : List PortOp) : s.phase = .idle → StepTo s (giveBack (.error .refused) { s with port := rest })
  /-- The running request made its next access. -/
  | access (i : Instr) (p : Plan) (acc : Access) : s.phase = .busy → decode (.request s.req) = .ok i → planOf i s = some p →
      p.ok = true → p.seq[s.seqIdx.toNat]? = some acc → StepTo s (engineStep p acc s)

/-- With no reset asked for, a step that executes nothing is made at IDLE (spec R21). -/
theorem phase_idle_of_fetch_none {s : State} (h : fetch s = none) (hreset : s.resetReq = false) : s.phase = .idle := by
  cases hphase : s.phase with
  | idle => rfl
  | busy => simp [fetch, hreset, hphase] at h

theorem stepTo_of_idleEvent {s : State} (h : fetch s = none) : StepTo s (idleEvent s) := by
  rcases idleEvent_cases s with ⟨-, he⟩ | ⟨hreset, j, b, rest, -, he⟩ | ⟨hreset, he⟩ <;> rw [he]
  · exact .reset
  · exact .writeBuf j b rest (phase_idle_of_fetch_none h hreset)
  · exact .wait (phase_idle_of_fetch_none h hreset)

/-- Executing the code taken from the port at IDLE (spec R31, R92, R117). -/
theorem stepTo_of_exec {s t : State} {c : Code} {i : Instr} {rest : List PortOp} (hphase : s.phase = .idle)
    (hdec : decode c = .ok i) (h : exec i { s with port := rest } = .next t) : StepTo s t := by
  have hcongr : planOf i { s with port := rest } = planOf i s := planOf_congr i rfl rfl
  cases c with
  | request w =>
    obtain ⟨p, hplan, rfl⟩ := planOf_of_decode hdec s
    rw [exec_eq_request (hcongr.trans hplan), request_idle (s := { s with port := rest }) hphase] at h
    cases h
    exact .submit rest i p hphase hdec hplan
  | frame bs => exact .call rest i t hphase (planOf_of_decode_frame hdec s) h

/-- Everything a step can do when it answers a next state, down to the operation it made. -/
theorem stepTo_of_step {s t : State} (h : step s = .next t) : StepTo s t := by
  rcases step_cases h with ⟨hf, rfl⟩ | ⟨c, s', i, hf, hdec, hexec⟩ | ⟨c, s', -, hf, -, hturn⟩
  · exact stepTo_of_idleEvent hf
  · obtain ⟨hreset, ⟨hphase, -, -⟩ | ⟨hphase, rest, -, rfl⟩⟩ := fetch_cases hf
    · obtain ⟨i, p, acc, hdec, hplan, hok, hacc, rfl⟩ := step_busy_cases hphase hreset h
      exact .access i p acc hphase hdec hplan hok hacc
    · exact stepTo_of_exec hphase hdec hexec
  · obtain ⟨hidle, hkind⟩ := turnAway_cases hturn
    obtain ⟨-, ⟨hphase, -, rfl⟩ | ⟨hphase, rest, -, rfl⟩⟩ := fetch_cases hf
    · nomatch hidle.symm.trans hphase
    · rcases hkind with ⟨w, -, rfl⟩ | ⟨bs, -, rfl⟩
      · exact .refuse rest w hphase
      · exact .reject rest hphase

end Sys2Proof.Machine
end

section
/-! The engine's invariant (spec R20-R26, R260), operation by operation. -/

namespace Sys2Proof.Machine

/-- At IDLE the invariant speaks of ERR and DONE only. -/
theorem engineInv_of_idle {s : State} (hphase : s.phase = .idle) (herr : LegalErr s.err)
    (hdone : s.done = false → s.err = 0#4) : EngineInv s :=
  ⟨herr, fun _ => hdone, fun hbusy => nomatch hphase.symm.trans hbusy⟩

/-- What keeps PHASE, ERR and DONE at IDLE keeps the invariant. -/
theorem EngineInv.of_idle_eq {s t : State} (h : EngineInv s) (hidle : s.phase = .idle) (hphase : t.phase = s.phase)
    (herr : t.err = s.err) (hdone : t.done = s.done) : EngineInv t := by
  obtain ⟨hlegal, hclean, -⟩ := h
  refine engineInv_of_idle (hphase.trans hidle) (herr ▸ hlegal) ?_
  rw [herr, hdone]
  exact hclean hidle

theorem engineInv_engineReset (s : State) : EngineInv (engineReset s) :=
  engineInv_of_idle rfl (.inl rfl) fun _ => rfl

/-- A refused word leaves REFUSED with DONE set, at IDLE (spec R265). -/
theorem engineInv_refuseWord (w : Word) {s : State} (hidle : s.phase = .idle) : EngineInv (refuseWord w s) :=
  engineInv_of_idle hidle (.inr (.inr (.inr (.inr rfl)))) (by simp)

/-- An accepted request stands at its first access (spec R92). -/
theorem engineInv_accept {i : Instr} {p : Plan} {s : State} (hdec : decode (.request p.word) = .ok i)
    (hplan : planOf i s = some p) (hok : p.ok = true) : EngineInv (accept p s) := by
  obtain ⟨hpos, -, -, -⟩ := planOf_bounds hplan
  have hrun : RunningRequest (accept p s) := ⟨i, p, hdec, planOf_accept hplan, hok, hpos⟩
  exact ⟨.inl rfl, by simp, fun _ => ⟨rfl, by simp, hrun⟩⟩

/-- A request submitted at IDLE is accepted or refused (spec R92). -/
theorem engineInv_submit {i : Instr} {p : Plan} {s : State} (hidle : s.phase = .idle)
    (hdec : decode (.request p.word) = .ok i) (hplan : planOf i s = some p) : EngineInv (submit p s) := by
  unfold submit
  split
  · exact engineInv_accept hdec hplan ‹_›
  · exact engineInv_refuseWord _ hidle

/-- An engine step of a running request keeps the invariant: the request ends, or stands at a later access of the same
sequence (spec R24, R25, R266-R268). -/
theorem EngineInv.of_engineStep {i : Instr} {p : Plan} {acc : Access} {s : State} (h : EngineInv s) (hbusy : s.phase = .busy)
    (hdec : decode (.request s.req) = .ok i) (hplan : planOf i s = some p) (hok : p.ok = true)
    (hacc : p.seq[s.seqIdx.toNat]? = some acc) : EngineInv (engineStep p acc s) := by
  obtain ⟨hlegal, -, hrun⟩ := h
  obtain ⟨hdone, hnotRefused, -⟩ := hrun hbusy
  obtain ⟨-, hlen, hclose, -⟩ := planOf_bounds hplan
  have hidx : s.seqIdx.toNat < p.seq.length := (List.getElem?_eq_some_iff.mp hacc).1
  have herr : LegalErr (engineStep p acc s).err ∧ (engineStep p acc s).err ≠ 5#4 := by
    rcases engineStep_err p acc s with he | ⟨c, he⟩ <;> rw [he]
    · exact ⟨hlegal, hnotRefused⟩
    · exact raiseErr_failErr_legal hlegal hnotRefused c
  rcases engineStep_ends_or_goes_on acc hidx hlen hclose with ⟨hidle, hend, -⟩ | ⟨hphase, hsame, -, hlt⟩
  · exact engineInv_of_idle hidle herr.1 (by simp [hend])
  · have hplan' := planOf_engineStep hplan (List.mem_of_getElem? hacc)
    refine ⟨herr.1, ?_, fun _ => ⟨hsame.trans hdone, herr.2, i, p, ?_, hplan', hok, hlt⟩⟩
    · simp [hphase, hbusy]
    · rwa [engineStep_req]

/-- A direct codec call leaves the engine's registers, so the invariant, as they are (spec R117). -/
theorem EngineInv.of_frameCall {i : Instr} {s t : State} (h : EngineInv s) (hidle : s.phase = .idle) (hplan : planOf i s = none)
    (hexec : exec i s = .next t) : EngineInv t := by
  rcases exec_frame_cases hplan hexec with ⟨u, sh, rfl, ⟨r, rfl⟩ | ⟨f, r, rfl⟩⟩ <;>
    exact h.of_idle_eq hidle rfl rfl rfl

/-- Every operation a step can make keeps the invariant. -/
theorem EngineInv.of_stepTo {s t : State} (h : EngineInv s) (hstep : StepTo s t) : EngineInv t := by
  cases hstep with
  | reset => exact engineInv_engineReset s
  | wait => exact h
  | writeBuf j b rest hidle => exact h.of_idle_eq hidle rfl rfl rfl
  | submit rest i p hidle hdec hplan => exact engineInv_submit hidle hdec ((planOf_congr i rfl rfl).trans hplan)
  | call rest i _ hidle hplan hexec =>
    have hport : EngineInv { s with port := rest } := h.of_idle_eq hidle rfl rfl rfl
    exact hport.of_frameCall hidle ((planOf_congr i rfl rfl).trans hplan) hexec
  | refuse rest w hidle => exact engineInv_refuseWord w hidle
  | reject rest hidle => exact h.of_idle_eq hidle rfl rfl rfl
  | access i p acc hbusy hdec hplan hok hacc => exact h.of_engineStep hbusy hdec hplan hok hacc

end Sys2Proof.Machine
end

section
/-! Noninterference: what is held at the port, and what the link answers. -/

namespace Sys2Proof.Machine

/-- What is held at the port has no effect on an access (spec R31, R294). -/
theorem afterAccess_port_update (acc : Access) (s : State) (q : List PortOp) :
    afterAccess acc { s with port := q } = { afterAccess acc s with port := q } := by
  have hout : exchangeOutcome (accessCount acc) { s with port := q } = exchangeOutcome (accessCount acc) s := rfl
  unfold afterAccess
  rw [hout]
  rcases exchangeOutcome (accessCount acc) s with rs | c
  · rcases acc with ⟨a, v⟩ | ⟨a, _ | ⟨_ | j, k⟩⟩ | ⟨a, len⟩ <;> rfl
  · rcases acc with ⟨a, v⟩ | ⟨a, act⟩ | ⟨a, len⟩ <;> rfl

theorem advance_port_update (p : Plan) (s : State) (q : List PortOp) :
    advance p { s with port := q } = { advance p s with port := q } := by
  unfold advance
  split <;> rfl

theorem takeError_port_update (p : Plan) (c : LinkFail) (s : State) (q : List PortOp) :
    takeError p c { s with port := q } = { takeError p c s with port := q } := by
  unfold takeError
  split
  · split <;> rfl
  · rfl

/-- What is held at the port has no effect on an engine step (spec R31, R294). -/
theorem engineStep_port_update (p : Plan) (acc : Access) (s : State) (q : List PortOp) :
    engineStep p acc { s with port := q } = { engineStep p acc s with port := q } := by
  have hout : exchangeOutcome (accessCount acc) { s with port := q } = exchangeOutcome (accessCount acc) s := rfl
  cases h : exchangeOutcome (accessCount acc) s with
  | ok rs => rw [engineStep_ok (hout.trans h), engineStep_ok h, afterAccess_port_update, advance_port_update]
  | fail c => rw [engineStep_fail (hout.trans h), engineStep_fail h, afterAccess_port_update, takeError_port_update]

end Sys2Proof.Machine
end

section
/-! The observation record (spec R39): what a step adds to it. -/

namespace Sys2Proof.Machine

@[simp] theorem submit_history (p : Plan) (s : State) : (submit p s).history = s.history := by
  unfold submit
  split <;> simp

/-- Every operation a step can make records at most one exchange (spec R39, R118, R143). -/
theorem StepTo.history {s t : State} (h : StepTo s t) : t.history = s.history ∨ ∃ r, t.history = s.history ++ [r] := by
  cases h with
  | reset | wait | writeBuf | refuse | reject => exact .inl rfl
  | submit => exact .inl (submit_history _ _)
  | call rest i _ hidle hplan hexec =>
    have hplan' : planOf i { s with port := rest } = none := (planOf_congr i rfl rfl).trans hplan
    rcases exec_frame_cases hplan' hexec with ⟨u, sh, rfl, ⟨r, rfl⟩ | ⟨f, r, rfl⟩⟩
    · exact .inl rfl
    · exact .inr ⟨_, rfl⟩
  | access i p acc => exact .inr ⟨_, engineStep_history p acc s⟩

end Sys2Proof.Machine
end

section
/-! The STATUS view, bit by bit (spec R30). -/

namespace Sys2Proof.Machine

theorem statusByte_getLsbD (phase : Phase) (done : Bool) (err : BitVec 4) (k : Nat) :
    (statusByte phase done err).getLsbD k =
      if k = 0 then phase == .busy else if k = 1 then done else if k < 4 then false else err.getLsbD (k - 4) := by
  rw [statusByte, BitVec.getLsbD_append, BitVec.getLsbD_append, BitVec.getLsbD_append]
  match k with
  | 0 | 1 | 2 | 3 | k + 4 => simp

end Sys2Proof.Machine
end

section
/-! An undisturbed run (spec R63, R143): every access is answered by exactly its response. -/

namespace Sys2Proof.Machine

/-- A run goes on from the next state of its first step. -/
theorem run_succ {s t : State} (h : step s = .next t) (k : Nat) :
    Host.Core.run Sys2Proof.core (k + 1) s = Host.Core.run Sys2Proof.core k t := by
  have hcore : Sys2Proof.core.step s = .next t := h
  simp only [Host.Core.run, hcore]

/-- With nothing pending, an answer of exactly the expected length is the response (spec R62, R63). -/
theorem exchangeOutcome_of_exact {r : Nat} {s : State} {a : LinkAnswer} {as : List LinkAnswer} (hrx : s.rx = [])
    (hanswers : s.answers = a :: as) (hlen : a.bytes.length = r) : exchangeOutcome r s = .ok a.bytes := by
  have havail : available s = a.bytes := by simp [available, nextAnswer, hrx, hanswers]
  rw [exchangeOutcome_of_le (by rw [havail, hlen]), havail, List.take_of_length_le hlen.le]

/-- An answer of exactly the expected length leaves nothing pending (spec R299). -/
theorem afterAccess_rx_of_exact {acc : Access} {s : State} {a : LinkAnswer} {as : List LinkAnswer} (hrx : s.rx = [])
    (hanswers : s.answers = a :: as) (hlen : a.bytes.length = accessCount acc) : (afterAccess acc s).rx = [] := by
  have havail : available s = a.bytes := by simp [available, nextAnswer, hrx, hanswers]
  rw [afterAccess_rx, havail, List.drop_eq_nil_of_le hlen.le]

/-- A step at IDLE with a request's word presented is its submission (spec R92). -/
theorem step_submit {s : State} {w : Word} {rest : List PortOp} {i : Instr} {p : Plan} (hidle : s.phase = .idle)
    (hreset : s.resetReq = false) (hport : s.port = .present (.request w) :: rest) (hdec : decode (.request w) = .ok i)
    (hplan : planOf i s = some p) : step s = .next (submit p { s with port := rest }) := by
  have hfetch : fetch s = some (.request w, { s with port := rest }) := by simp [fetch, hidle, hreset, hport]
  have hplan' : planOf i { s with port := rest } = some p := (planOf_congr i rfl rfl).trans hplan
  simp only [step, hfetch, hdec]
  rw [exec_eq_request hplan', request_idle (s := { s with port := rest }) hidle]

/-- The well-formed request i, of plan p, is running, and nothing is pending on the link. -/
structure RunsPlan (i : Instr) (p : Plan) (s : State) : Prop where
  phase : s.phase = .busy
  reset : s.resetReq = false
  decodes : decode (.request s.req) = .ok i
  plan : planOf i s = some p
  ok : p.ok = true
  rx : s.rx = []

/-- The step of a running request whose access is answered by exactly its response. -/
theorem RunsPlan.step_eq {i : Instr} {p : Plan} {s : State} {acc : Access} {a : LinkAnswer} {as : List LinkAnswer}
    (h : RunsPlan i p s) (hacc : p.seq[s.seqIdx.toNat]? = some acc) (hanswers : s.answers = a :: as)
    (hlen : a.bytes.length = accessCount acc) : step s = .next (advance p (afterAccess acc s)) := by
  rw [step_busy h.phase h.reset h.decodes h.plan h.ok hacc, engineStep_ok (exchangeOutcome_of_exact h.rx hanswers hlen)]

/-- What an undisturbed run from s, at the accesses `seq` with the answers `as`, has reached in t: the request of s is
completed, and exactly those accesses are recorded (spec R25, R39). -/
structure RanToEnd (p : Plan) (seq : List Access) (as later : List LinkAnswer) (s t : State) : Prop where
  phase : t.phase = .idle
  done : t.done = true
  err : t.err = s.err
  req : t.req = s.req
  seqIdx : t.seqIdx.toNat = p.seq.length
  history : t.history = s.history ++ recordsOf seq as
  answers : t.answers = later
  rx : t.rx = []
  port : t.port = s.port
  params : t.params = s.params

/-- A running request at its access k, whose remaining accesses are all answered by exactly their responses, completes after
one step for each (spec R24, R25, R39). -/
theorem RunsPlan.run_remaining {i : Instr} {p : Plan} {s : State} {seq : List Access} {as later : List LinkAnswer}
    (hruns : RunsPlan i p s) (hlen : p.seq.length ≤ 434) (hseq : p.seq.drop s.seqIdx.toNat = seq) (hne : seq ≠ [])
    (hanswers : s.answers = as ++ later) (hfit : AnswersFit seq as) :
    ∃ t, Host.Core.run Sys2Proof.core seq.length s = .next t ∧ RanToEnd p seq as later s t := by
  induction hfit generalizing s with
  | nil => exact absurd rfl hne
  | @cons acc a seq as hexact hfit ih =>
    have hacc : p.seq[s.seqIdx.toNat]? = some acc := by rw [← List.head?_drop, hseq, List.head?_cons]
    have hrest : p.seq.drop (s.seqIdx.toNat + 1) = seq := by rw [← List.tail_drop, hseq, List.tail_cons]
    have hidx : s.seqIdx.toNat < p.seq.length := (List.getElem?_eq_some_iff.mp hacc).1
    have hsucc := seqIdx_succ hidx hlen
    have hout := exchangeOutcome_of_exact hruns.rx hanswers hexact
    have hpend := afterAccess_rx_of_exact hruns.rx hanswers hexact
    rw [List.length_cons, run_succ (hruns.step_eq hacc hanswers hexact)]
    rcases advance_cases p (afterAccess acc s) with ⟨hend, hadv⟩ | ⟨hon, hadv⟩ <;> rw [hadv]
    · rw [afterAccess_seqIdx] at hend
      obtain rfl : seq = [] := by rw [← hrest, hend, List.drop_length]
      cases hfit
      exact ⟨_, rfl, rfl, rfl, by simp, by simp, by simp [hsucc, hend], by simp [recordsOf, hout],
        by simp [hanswers], hpend, by simp, by simp⟩
    · rw [afterAccess_seqIdx] at hon
      have hne' : seq ≠ [] := by
        rw [← hrest, ne_eq, List.drop_eq_nil_iff]
        omega
      have hruns' : RunsPlan i p { afterAccess acc s with seqIdx := (afterAccess acc s).seqIdx + 1#9 } :=
        ⟨by simp [hruns.phase], by simp [hruns.reset], by simp [hruns.decodes],
          (planOf_congr i rfl rfl).trans (planOf_afterAccess hruns.plan (List.mem_of_getElem? hacc)), hruns.ok, hpend⟩
      obtain ⟨t, hrun, hend⟩ := ih hruns' (by simp [hsucc, hrest]) hne' (by simp [hanswers])
      exact ⟨t, hrun, hend.phase, hend.done, by simp [hend.err], by simp [hend.req], hend.seqIdx,
        by simp [hend.history, recordsOf, hout], hend.answers, hend.rx, by simp [hend.port], by simp [hend.params]⟩

/-- A well-formed request submitted at IDLE to a link that keeps its duty is accepted and runs to its end: the whole run, from
the accepted state on (spec R23-R25, R39, R63). -/
theorem run_of_submit {s : State} {w : Word} {rest : List PortOp} {i : Instr} {p : Plan} {as later : List LinkAnswer}
    (hidle : s.phase = .idle) (hreset : s.resetReq = false) (hport : s.port = .present (.request w) :: rest) (hrx : s.rx = [])
    (hdec : decode (.request w) = .ok i) (hplan : planOf i s = some p) (hok : p.ok = true)
    (hanswers : s.answers = as ++ later) (hfit : AnswersFit p.seq as) :
    ∃ t, Host.Core.run Sys2Proof.core (1 + p.seq.length) s = .next t ∧ p.word = w ∧
      RanToEnd p p.seq as later (accept p { s with port := rest }) t := by
  obtain ⟨hpos, hlen, -, -⟩ := planOf_bounds hplan
  obtain ⟨p', hplan', hword⟩ := planOf_of_decode hdec s
  obtain rfl : p = p' := Option.some.inj (hplan.symm.trans hplan')
  have hport' : planOf i { s with port := rest } = some p := (planOf_congr i rfl rfl).trans hplan
  have hruns : RunsPlan i p (accept p { s with port := rest }) :=
    ⟨rfl, hreset, by rw [accept_req, hword, hdec], planOf_accept hport', hok, hrx⟩
  have hne : p.seq ≠ [] := List.ne_nil_of_length_pos hpos
  obtain ⟨t, hrun, hend⟩ := hruns.run_remaining hlen rfl hne hanswers hfit
  refine ⟨t, ?_, hword, hend⟩
  rw [Nat.add_comm, run_succ (step_submit hidle hreset hport hdec hplan), submit, if_pos hok]
  exact hrun

end Sys2Proof.Machine
end

section
/-! The obligations of spec section 10: the engine's state. -/

namespace Sys2Proof.Proofs

open Sys2Proof.Machine

/-- Settles O52: by the operation the step made, each of which keeps the invariant. -/
theorem engineInvariantIsKept : Obligations.EngineInvariantIsKept :=
  fun _ _ hinv hstep => hinv.of_stepTo (stepTo_of_step hstep)

/-- Settles O19: from the bounds of every plan, well-formed or not. -/
theorem sequencesFitTheIndex : Obligations.SequencesFitTheIndex :=
  fun _ _ _ hplan _ => planOf_bounds hplan

/-- Settles O37: the submission, then one step for each access of the accepted request. -/
theorem requestRunsToCompletion : Obligations.RequestRunsToCompletion := by
  intro s w rest i p as later hidle hreset hport hrx hdec hplan hok hanswers hfit
  obtain ⟨t, hrun, hword, hend⟩ := run_of_submit hidle hreset hport hrx hdec hplan hok hanswers hfit
  exact ⟨t, hrun, hend.phase, hend.done, hend.err, hend.req.trans hword, hend.seqIdx, hend.history, hend.answers, hend.rx,
    hend.port, hend.params⟩

/-- Settles O46: the one engine step of a running request commutes with replacing what is held. -/
theorem portIsHeldWhileBusy : Obligations.PortIsHeldWhileBusy := by
  intro s t q hbusy hreset hstep
  obtain ⟨i, p, acc, hdec, hplan, hok, hacc, rfl⟩ := step_busy_cases hbusy hreset hstep
  have hplan' : planOf i { s with port := q } = some p := (planOf_congr i rfl rfl).trans hplan
  refine ⟨engineStep_port p acc s, ?_⟩
  rw [step_busy (s := { s with port := q }) hbusy hreset hdec hplan' hok hacc, engineStep_port_update]

/-- Settles O54: the step is the engine step of this plan, which keeps the plan and moves the index up. -/
theorem runningRequestKeepsItsSequence : Obligations.RunningRequestKeepsItsSequence := by
  intro s t i p hbusy hreset hdec hplan hstep
  obtain ⟨i', p', acc, hdec', hplan', -, hacc, rfl⟩ := step_busy_cases hbusy hreset hstep
  obtain rfl : i = i' := Except.ok.inj (hdec.symm.trans hdec')
  obtain rfl : p = p' := Option.some.inj (hplan.symm.trans hplan')
  obtain ⟨-, hlen, hclose, -⟩ := planOf_bounds hplan
  have hidx : s.seqIdx.toNat < p.seq.length := (List.getElem?_eq_some_iff.mp hacc).1
  refine ⟨engineStep_req p acc s, ?_⟩
  rcases engineStep_ends_or_goes_on acc hidx hlen hclose with ⟨hidle, -, hle⟩ | ⟨-, -, hlt, -⟩
  · exact ⟨hle, fun hgoes => nomatch hidle.symm.trans hgoes⟩
  · exact ⟨hlt.le, fun _ => ⟨hlt, planOf_engineStep hplan (List.mem_of_getElem? hacc)⟩⟩

/-- Settles O55: with any other link the same plan stands at the same access, whose frame and count are recorded. -/
theorem framesDoNotDependOnTheLink : Obligations.FramesDoNotDependOnTheLink := by
  intro s t as bs d hbusy hreset hstep
  obtain ⟨i, p, acc, hdec, hplan, hok, hacc, rfl⟩ := step_busy_cases hbusy hreset hstep
  have hplan' : planOf i { s with answers := as, rx := bs, draws := d } = some p := (planOf_congr i rfl rfl).trans hplan
  exact ⟨_, _, _, step_busy hbusy hreset hdec hplan' hok hacc, engineStep_history .., engineStep_history .., rfl, rfl⟩

/-- Settles O56: by the operation the step made; while BUSY it is an access, which makes one exchange. -/
theorem eachStepRecordsAtMostOneExchange : Obligations.EachStepRecordsAtMostOneExchange := by
  intro s t hstep
  refine ⟨(stepTo_of_step hstep).history, fun hbusy hreset => ?_⟩
  obtain ⟨i, p, acc, -, -, -, -, rfl⟩ := step_busy_cases hbusy hreset hstep
  exact ⟨_, engineStep_history p acc s⟩

/-- Settles O47: at IDLE neither a `write_buf` nor an empty port gives the engine anything to execute. -/
theorem portOperationsAtIdle : Obligations.PortOperationsAtIdle := by
  intro s hidle hreset
  constructor
  · intro j b rest hport
    refine ⟨s.buf.set j b, ?_, fun k => ?_⟩
    · simp [step, fetch, idleEvent, writeBuf, hidle, hreset, hport]
    · rcases eq_or_ne k j with rfl | hne
      · simp
      · have hval : j.val ≠ k.val := fun h => hne (Fin.ext h.symm)
        simp [hne, Vector.getElem_set_ne _ _ hval]
  · intro hport
    simp [step, fetch, idleEvent, hidle, hreset, hport]

/-- Settles O49, field by field. -/
theorem resetStateValues : Obligations.ResetStateValues :=
  ⟨rfl, rfl, rfl, rfl, rfl, rfl, rfl⟩

/-- Settles O50, from the bits of the STATUS byte. -/
theorem statusLayout : Obligations.StatusLayout := by
  refine ⟨fun s => ⟨?_, ?_, ?_, ?_⟩, rfl⟩ <;> unfold readStatus
  · rw [statusByte_getLsbD]
    simp
  · rw [statusByte_getLsbD]
    simp
  · apply BitVec.eq_of_getLsbD_eq
    intro k hk
    rw [BitVec.getLsbD_extractLsb', statusByte_getLsbD]
    interval_cases k <;> rfl
  · apply BitVec.eq_of_getLsbD_eq
    intro k hk
    rw [BitVec.getLsbD_extractLsb', statusByte_getLsbD]
    interval_cases k <;> rfl

/-- Settles O51: the reset state is IDLE with no error. -/
theorem engineInvariantAtReset : Obligations.EngineInvariantAtReset :=
  engineInv_of_idle rfl (.inl rfl) fun _ => rfl

end Sys2Proof.Proofs
end

section
/-! The outcomes of an exchange (spec R62), by what is available and how the delivery ended: the three ways to fail, beside
`exchangeOutcome_of_le` for the completed exchange. -/

namespace Sys2Proof.Machine

/-- Too few bytes before the timeout: the exchange times out, whatever had arrived (spec R62). -/
theorem exchangeOutcome_of_timeout {r : Nat} {s : State} (hshort : (available s).length < r)
    (hend : (nextAnswer s).ending = .timeout) : exchangeOutcome r s = .fail .timeout := by
  simp [exchangeOutcome, linkOutcome, hshort.not_ge, hend]

/-- The stream closed before the first byte (spec R62). -/
theorem exchangeOutcome_of_closed {r : Nat} {s : State} (hr : 0 < r) (hnone : available s = [])
    (hend : (nextAnswer s).ending = .closed) : exchangeOutcome r s = .fail .closed := by
  simp [exchangeOutcome, linkOutcome, hr.ne', hnone, hend]

/-- The stream closed after some bytes but not enough of them (spec R62). -/
theorem exchangeOutcome_of_short {r : Nat} {s : State} (hsome : available s ≠ []) (hshort : (available s).length < r)
    (hend : (nextAnswer s).ending = .closed) : exchangeOutcome r s = .fail .short := by
  simp [exchangeOutcome, linkOutcome, hshort.not_ge, hsome, hend]

/-- Fewer bytes than one is none, so a 1-byte response is never short (spec R120). -/
theorem exchangeOutcome_one_ne_short (s : State) : exchangeOutcome 1 s ≠ .fail .short := by
  intro h
  rcases exchangeOutcome_fail_cases h with ⟨hlt, ⟨hc, -⟩ | ⟨hc, -⟩ | ⟨-, -, hsome⟩⟩
  · cases hc
  · cases hc
  · exact hsome (List.length_eq_zero_iff.mp (Nat.lt_one_iff.mp hlt))

end Sys2Proof.Machine
end

section
/-! The obligation of spec section 20: the link. -/

namespace Sys2Proof.Proofs

open Sys2Proof.Machine

/-- Settles O42: the bytes an exchange can receive are `available`, and each way its delivery can end has its own lemma. -/
theorem exchangeOutcomes : Obligations.ExchangeOutcomes := by
  intro f r s got
  have hgot : got = available s := rfl
  rw [hgot]
  exact ⟨exchangeOutcome_of_le, exchangeOutcome_of_timeout, exchangeOutcome_of_closed,
    fun hpos => exchangeOutcome_of_short (List.length_pos_iff.mp hpos), exchangeOutcome_one_ne_short s,
    afterExchange_rx f r s, afterExchange_history f r s⟩

end Sys2Proof.Proofs
end

section
/-! The fields of a request word (spec R90), and the decoder on the words the encoder writes (spec R91, R93). -/

namespace Sys2Proof.Machine

/-- The number of a request word, from its fields (spec R90). -/
theorem requestWord_toNat (op n : BitVec 4) (a : Byte) (v : Half) :
    (requestWord op n a v).toNat = ((op.toNat * 16 + n.toNat) * 256 + a.toNat) * 65536 + v.toNat := by
  have happend {k m : Nat} (x : BitVec k) (y : BitVec m) : (x ++ y).toNat = x.toNat * 2 ^ m + y.toNat := by
    rw [BitVec.toNat_append, ← Nat.shiftLeft_add_eq_or_of_lt y.isLt, Nat.shiftLeft_eq]
  exact (happend (op ++ n ++ a) v).trans (by rw [happend (op ++ n) a, happend op n]; rfl)

@[simp] theorem opField_requestWord (op n : BitVec 4) (a : Byte) (v : Half) : opField (requestWord op n a v) = op := by
  apply BitVec.eq_of_toNat_eq
  simp only [opField, BitVec.extractLsb'_toNat, requestWord_toNat, Nat.shiftRight_eq_div_pow]
  omega

@[simp] theorem nField_requestWord (op n : BitVec 4) (a : Byte) (v : Half) : nField (requestWord op n a v) = n := by
  apply BitVec.eq_of_toNat_eq
  simp only [nField, BitVec.extractLsb'_toNat, requestWord_toNat, Nat.shiftRight_eq_div_pow]
  omega

@[simp] theorem aField_requestWord (op n : BitVec 4) (a : Byte) (v : Half) : aField (requestWord op n a v) = a := by
  apply BitVec.eq_of_toNat_eq
  simp only [aField, BitVec.extractLsb'_toNat, requestWord_toNat, Nat.shiftRight_eq_div_pow]
  omega

@[simp] theorem vField_requestWord (op n : BitVec 4) (a : Byte) (v : Half) : vField (requestWord op n a v) = v := by
  apply BitVec.eq_of_toNat_eq
  simp only [vField, BitVec.extractLsb'_toNat, requestWord_toNat, Nat.shiftRight_eq_div_pow]
  omega

/-- A request word is determined by its four fields (spec R90). -/
theorem requestWord_eq_iff {w : Word} {op n : BitVec 4} {a : Byte} {v : Half} :
    requestWord op n a v = w ↔ opField w = op ∧ nField w = n ∧ aField w = a ∧ vField w = v :=
  ⟨by rintro rfl; simp, fun ⟨hop, hn, ha, hv⟩ => requestWord_eq hop hn ha hv⟩

/-- Two request words are equal when their fields are (spec R90). -/
theorem word_eq_iff_fields {w w' : Word} :
    w = w' ↔ opField w = opField w' ∧ nField w = nField w' ∧ aField w = aField w' ∧ vField w = vField w' := by
  rw [← requestWord_eq_iff, requestWord_fields, eq_comm]

/-- A masked word has a value when each of its masked fields has that value's field (spec R90). -/
theorem and_eq_iff_fields {w mask value : Word} :
    w &&& mask = value ↔
      opField w &&& opField mask = opField value ∧ nField w &&& nField mask = nField value ∧
        aField w &&& aField mask = aField value ∧ vField w &&& vField mask = vField value := by
  rw [word_eq_iff_fields]
  simp only [opField, nField, aField, vField, BitVec.extractLsb'_and]

/-- The low byte of the word that sends the byte x is x (spec R161, R163). -/
theorem lowByte_byteWord (op : BitVec 4) (x : Byte) :
    (requestWord op 0#4 0#8 (x.setWidth 16)).extractLsb' 0 8 = x := by
  apply BitVec.eq_of_toNat_eq
  simp only [BitVec.extractLsb'_toNat, requestWord_toNat, Nat.shiftRight_zero, BitVec.toNat_setWidth]
  omega

@[simp] theorem byteOnly_setWidth (x : Byte) : byteOnly (x.setWidth 16) = true := by
  have hx : x.toNat < 256 := x.isLt
  simp [byteOnly, ← BitVec.toNat_inj, Nat.shiftRight_eq_div_pow]
  omega

/-- An OP = 7 word with V = 0 decodes to the most specific row of its cmd and n (spec R188; log 10). -/
theorem decodeRequest_txnWord (c : Byte) (n : BitVec 4) :
    decodeRequest (requestWord 0x7#4 n c 0#16) = .ok (decodeTxn c n) := by
  simp [decodeRequest]

/-- A word with a reserved OP decodes to no instruction (spec R94). -/
theorem decodeRequest_of_reservedOp {w : Word} (h : opField w = 0x0#4 ∨ 8 ≤ (opField w).toNat) :
    decodeRequest w = .error .reservedOp := by
  have hne {k : BitVec 4} (hlo : k ≠ 0#4) (hhi : k.toNat < 8) : opField w ≠ k := by
    rintro rfl
    exact h.elim hlo (not_le.mpr hhi)
  simp [decodeRequest, hne]

end Sys2Proof.Machine
end

section
/-! The frame codec, both ways (spec R80, R81, R85, R110, R113): `Encode`'s frames are the byte strings the parser accepts. -/

namespace Sys2Proof.Machine

/-- `Encode` succeeds exactly when none of its four refusals applies, with the frame layout (spec R110). -/
theorem encodeFrame_eq_ok_iff {op : Byte} {addr : Nat} {payload f : List Byte} :
    encodeFrame op addr payload = .ok f ↔
      isFrameOp op = true ∧ addr < 2 ^ 32 ∧ payload.length ≤ maxPayload ∧ (isReadOp op = true → payload.length = 2) ∧
        frameBytes op addr payload = f := by
  unfold encodeFrame
  split_ifs with hop haddr hfits hread
  · exact ⟨nofun, fun ⟨hop', _⟩ => nomatch hop.symm.trans hop'⟩
  · exact ⟨nofun, fun ⟨_, haddr', _⟩ => absurd haddr' haddr.not_gt⟩
  · exact ⟨nofun, fun ⟨_, _, hfits', _⟩ => absurd hfits' hfits.not_ge⟩
  · exact ⟨nofun, fun ⟨_, _, _, hread', _⟩ => absurd (hread' hread.1) hread.2⟩
  · exact ⟨fun h => ⟨eq_true_of_ne_false hop, not_le.mp haddr, not_lt.mp hfits,
      fun hr => by_contra fun hne => hread ⟨hr, hne⟩, Except.ok.inj h⟩, fun ⟨_, _, _, _, hf⟩ => congrArg _ hf⟩

/-- LENGTH of a frame, read back, as long as the u16 field can hold it (spec R81). -/
theorem fromLe_lengthField {n : Nat} (h : n ≤ maxPayload) : fromLe (le 2 (n + 7)) = n + 7 := by
  rw [fromLe_le, Nat.mod_eq_of_lt (by unfold maxPayload at h; omega)]

/-- The parser on a byte string cut at the places of LENGTH, OPCODE, ADDRESS, PAYLOAD and TRAILER (spec R80, R113). -/
theorem parseFrame_parts {len address : List Byte} (hlen : len.length = 2) (haddress : address.length = 4) (op : Byte)
    (payload : List Byte) (t₀ t₁ : Byte) :
    parseFrame (len ++ op :: (address ++ (payload ++ [t₀, t₁]))) =
      if fromLe len ≠ payload.length + 7 then .error .lengthMismatch
      else if isFrameOp op = false then .error .badOpcode
      else if t₀ ≠ 0#8 ∨ t₁ ≠ 0#8 then .error .badTrailer
      else if isReadOp op = true ∧ payload.length ≠ 2 then .error .badReadPayload
      else .ok (op, fromLe address, payload) := by
  obtain ⟨l₀, l₁, rfl⟩ := List.length_eq_two.mp hlen
  obtain ⟨a₀, a₁, a₂, a₃, rfl⟩ := List.length_eq_four.mp haddress
  simp [parseFrame, framePayload, byteAt]

/-- A byte string of at least 9 bytes can be cut at those places (spec R113). -/
theorem exists_frame_parts {bs : List Byte} (h : 9 ≤ bs.length) :
    ∃ len op address payload t₀ t₁, len.length = 2 ∧ address.length = 4 ∧
      bs = len ++ op :: (address ++ (payload ++ [t₀, t₁])) := by
  obtain ⟨t₀, t₁, htrailer⟩ : ∃ t₀ t₁, bs.drop (bs.length - 2) = [t₀, t₁] :=
    List.length_eq_two.mp (by rw [List.length_drop]; omega)
  refine ⟨bs.take 2, bs[2], (bs.drop 3).take 4, (bs.drop 7).take (bs.length - 9), t₀, t₁, ?_, ?_, ?_⟩
  · rw [List.length_take]
    omega
  · rw [List.length_take, List.length_drop]
    omega
  · have hlast : bs.drop (bs.length - 2) = (bs.drop 7).drop (bs.length - 9) := by
      rw [List.drop_drop]
      congr 1
      omega
    have hseven : bs.drop 7 = (bs.drop 3).drop 4 := by rw [List.drop_drop]
    rw [← htrailer, hlast, List.take_append_drop, hseven, List.take_append_drop, List.getElem_cons_drop,
      List.take_append_drop]

/-- The parser accepts exactly the frames `Encode` builds, with their parts (spec R110, R113). -/
theorem parseFrame_eq_ok_iff {bs : List Byte} {op : Byte} {addr : Nat} {payload : List Byte} :
    parseFrame bs = .ok (op, addr, payload) ↔ encodeFrame op addr payload = .ok bs := by
  rw [encodeFrame_eq_ok_iff]
  constructor
  · intro h
    have hlong : 9 ≤ bs.length := by
      by_contra hshort
      simp [parseFrame, not_le.mp hshort] at h
    obtain ⟨len, op', address, payload', t₀, t₁, hlen, haddress, rfl⟩ := exists_frame_parts hlong
    rw [parseFrame_parts hlen haddress] at h
    split_ifs at h with hLENGTH hop htrailer hread
    cases h
    rw [not_not] at hLENGTH
    rw [not_or, not_not, not_not] at htrailer
    obtain ⟨rfl, rfl⟩ := htrailer
    have hlenlt : fromLe len < 65536 := by simpa [hlen] using fromLe_lt len
    have haddrlt : fromLe address < 2 ^ 32 := by simpa [haddress] using fromLe_lt address
    refine ⟨by simpa using hop, haddrlt, ?_, ?_, ?_⟩
    · unfold maxPayload
      omega
    · intro hisread
      by_contra hne
      exact hread ⟨hisread, hne⟩
    · have hle₂ : le 2 (fromLe len) = len := hlen ▸ le_fromLe len
      have hle₄ : le 4 (fromLe address) = address := haddress ▸ le_fromLe address
      rw [frameBytes_eq, ← hLENGTH, hle₂, hle₄]
  · rintro ⟨hop, haddr, hfits, hread, rfl⟩
    have hlt : addr % 256 ^ 4 = addr := Nat.mod_eq_of_lt haddr
    rw [frameBytes_eq, parseFrame_parts (le_length _ _) (le_length _ _), fromLe_lengthField hfits, fromLe_le, hlt]
    simpa [hop] using hread

/-- An encoded frame is split off the front of a stream, by its LENGTH (spec R85). -/
theorem splitFrame_append {op : Byte} {addr : Nat} {payload : List Byte} (h : payload.length ≤ maxPayload) (rest : List Byte) :
    splitFrame (frameBytes op addr payload ++ rest) = some (frameBytes op addr payload, rest) := by
  have hlen : fromLe ((frameBytes op addr payload ++ rest).take 2) = payload.length + 7 := by
    rw [frameBytes_eq, List.append_assoc, List.take_left' (le_length _ _), fromLe_lengthField h]
  have hwhole : (frameBytes op addr payload).length = 2 + (payload.length + 7) := by
    rw [frameBytes_length]
    omega
  have hcut : ¬(frameBytes op addr payload ++ rest).length < (frameBytes op addr payload).length := by simp
  unfold splitFrame
  rw [hlen, ← hwhole, if_neg hcut, List.take_left, List.drop_left, if_neg]
  omega

end Sys2Proof.Machine
end

section
/-! Decoding and encoding are inverse to each other (spec R80, R90-R93, R113): `decode c = .ok i` says the same as
`encode i = c`, for the encodable instructions in their canonical form. -/

namespace Sys2Proof.Machine

theorem frameInstr_writeRom (addr : Nat) (payload : List Byte) :
    frameInstr opWriteRom addr payload = .frWriteRom (BitVec.ofNat 32 addr) payload := rfl

theorem frameInstr_readRom (addr : Nat) (payload : List Byte) :
    frameInstr opReadRom addr payload = .frReadRom (BitVec.ofNat 32 addr) (BitVec.ofNat 16 (fromLe payload)) := rfl

theorem frameInstr_writeRam (addr : Nat) (payload : List Byte) :
    frameInstr opWriteRam addr payload = .frWriteRam (BitVec.ofNat 32 addr) payload := rfl

theorem frameInstr_readRam (addr : Nat) (payload : List Byte) :
    frameInstr opReadRam addr payload = .frReadRam (BitVec.ofNat 32 addr) (BitVec.ofNat 16 (fromLe payload)) := rfl

/-- What `Encode` accepts decodes, as a frame, to the instruction of its parts (spec R113, R120-R123). -/
theorem decode_frameBytes {op : Byte} {addr : Word} {payload : List Byte} (hop : isFrameOp op = true)
    (hfits : payload.length ≤ maxPayload) (hread : isReadOp op = true → payload.length = 2) :
    decode (.frame (frameBytes op addr.toNat payload)) = .ok (frameInstr op addr.toNat payload) := by
  have hparse : parseFrame (frameBytes op addr.toNat payload) = .ok (op, addr.toNat, payload) :=
    parseFrame_eq_ok_iff.mpr (encodeFrame_eq_ok_iff.mpr ⟨hop, addr.isLt, hfits, hread, rfl⟩)
  simp [decode, decodeFrame, hparse]

/-- What `Encode` accepts as a read decodes to the read of its parts (spec R82, R113). -/
theorem decode_readFrame {op : Byte} {addr : Word} {len : Half} (hop : isFrameOp op = true) :
    decode (.frame (frameBytes op addr.toNat (le 2 len.toNat))) = .ok (frameInstr op addr.toNat (le 2 len.toNat)) := by
  apply decode_frameBytes hop <;> simp [maxPayload]

/-- A requested length, read back from a read frame's payload (spec R82). -/
theorem ofNat_fromLe_le (len : Half) : BitVec.ofNat 16 (fromLe (le 2 len.toNat)) = len := by
  have hlt : len.toNat % 256 ^ 2 = len.toNat := Nat.mod_eq_of_lt len.isLt
  rw [fromLe_le, hlt, BitVec.ofNat_toNat, BitVec.setWidth_eq]

/-- Decoding the encoding of an encodable instruction gives its canonical form (spec R80, R90; log 10). -/
theorem decode_encode {i : Instr} (h : i.encodable = true) : decode (encode i) = .ok i.canonical := by
  cases i with
  | bbSendCmd x => simp [encode, decode, decodeRequest, Instr.canonical, lowByte_byteWord]
  | bbWriteByte x => simp [encode, decode, decodeRequest, Instr.canonical, lowByte_byteWord]
  | bbReadByte => rfl
  | gpioWrite16 a v =>
    have heven : evenAddr a = true := h
    simp [encode, decode, decodeRequest, decodeGpio_eq_ok, Instr.canonical, heven]
  | gpioRead16 a =>
    have heven : evenAddr a = true := h
    simp [encode, decode, decodeRequest, decodeGpio_eq_ok, Instr.canonical, heven]
  | gpioReadN a len =>
    have heven : evenAddr a = true := h
    simp [encode, decode, decodeRequest, decodeGpio_eq_ok, Instr.canonical, heven]
  | rtcTxn c n => exact decodeRequest_txnWord c n
  | rtcReset => rfl
  | rtcWriteStatus => rfl
  | rtcReadStatus => rfl
  | rtcWriteDate => rfl
  | rtcReadDate => rfl
  | rtcWriteTime n => exact (decodeRequest_txnWord 0x66#8 n).trans (by simp [decodeTxn, Instr.canonical])
  | rtcReadTime n => exact (decodeRequest_txnWord 0x67#8 n).trans (by simp [decodeTxn, Instr.canonical])
  | rtcWriteAlarm n => exact (decodeRequest_txnWord 0x68#8 n).trans (by simp [decodeTxn, Instr.canonical])
  | rtcReadAlarm n => exact (decodeRequest_txnWord 0x69#8 n).trans (by simp [decodeTxn, Instr.canonical])
  | frWriteRom addr payload =>
    have hread : isReadOp opWriteRom = true → payload.length = 2 := fun hop => absurd hop (by decide)
    rw [encode, decode_frameBytes rfl (of_decide_eq_true h) hread, frameInstr_writeRom, BitVec.ofNat_toNat,
      BitVec.setWidth_eq]
    rfl
  | frReadRom addr len =>
    rw [encode, decode_readFrame rfl, frameInstr_readRom, ofNat_fromLe_le, BitVec.ofNat_toNat, BitVec.setWidth_eq]
    rfl
  | frWriteRam addr payload =>
    have hread : isReadOp opWriteRam = true → payload.length = 2 := fun hop => absurd hop (by decide)
    rw [encode, decode_frameBytes rfl (of_decide_eq_true h) hread, frameInstr_writeRam, BitVec.ofNat_toNat,
      BitVec.setWidth_eq]
    rfl
  | frReadRam addr len =>
    rw [encode, decode_readFrame rfl, frameInstr_readRam, ofNat_fromLe_le, BitVec.ofNat_toNat, BitVec.setWidth_eq]
    rfl

/-- Only a generic transaction has another canonical form than itself (log 10). -/
theorem canonical_eq_self {i : Instr} (h : ∀ c n, i ≠ .rtcTxn c n) : i.canonical = i := by
  cases i with
  | rtcTxn c n => exact absurd rfl (h c n)
  | _ => rfl

/-- The row of an OP = 7 word can always be encoded (spec R188). -/
theorem encodable_decodeTxn (c : Byte) (n : BitVec 4) : (decodeTxn c n).encodable = true := by
  unfold decodeTxn
  split_ifs <;> rfl

/-- A request word decodes to encodable instructions only: the GPIO rows fix bit 16 at 0 (spec R57, R93). -/
theorem encodable_of_decodeRequest {w : Word} {i : Instr} (h : decodeRequest w = .ok i) : i.encodable = true := by
  unfold decodeRequest at h
  split_ifs at h
  · cases h
    rfl
  · cases h
    rfl
  · cases h
    rfl
  · obtain ⟨-, heven, rfl⟩ := decodeGpio_eq_ok.mp h
    exact heven
  · obtain ⟨-, heven, rfl⟩ := decodeGpio_eq_ok.mp h
    exact heven
  · obtain ⟨-, heven, rfl⟩ := decodeGpio_eq_ok.mp h
    exact heven
  · cases h
    exact encodable_decodeTxn _ _

/-- The instruction of an encoded frame's parts encodes to that frame (spec R80, R82). -/
theorem encode_frameInstr {op : Byte} {addr : Nat} {payload bs : List Byte} (h : encodeFrame op addr payload = .ok bs) :
    encode (frameInstr op addr payload) = .frame bs ∧ (frameInstr op addr payload).encodable = true := by
  obtain ⟨hop, haddr, hfits, hread, rfl⟩ := encodeFrame_eq_ok_iff.mp h
  have haddress : (BitVec.ofNat 32 addr).toNat = addr := Nat.mod_eq_of_lt haddr
  have hlen (hr : isReadOp op = true) : le 2 (BitVec.ofNat 16 (fromLe payload)).toNat = payload := by
    have hlt : fromLe payload < 2 ^ 16 := by simpa [hread hr] using fromLe_lt payload
    rw [BitVec.toNat_ofNat, Nat.mod_eq_of_lt hlt, ← hread hr, le_fromLe]
  obtain rfl | rfl | rfl | rfl : op = opWriteRom ∨ op = opReadRom ∨ op = opWriteRam ∨ op = opReadRam := by
    simpa [isFrameOp, or_assoc] using hop
  · exact ⟨by rw [frameInstr_writeRom, encode, haddress], decide_eq_true hfits⟩
  · exact ⟨by rw [frameInstr_readRom, encode, haddress, hlen rfl], rfl⟩
  · exact ⟨by rw [frameInstr_writeRam, encode, haddress], decide_eq_true hfits⟩
  · exact ⟨by rw [frameInstr_readRam, encode, haddress, hlen rfl], rfl⟩

/-- A frame that decodes is the encoding of its instruction (spec R80, R113). -/
theorem encode_of_decodeFrame {bs : List Byte} {i : Instr} (h : decodeFrame bs = .ok i) :
    encode i = .frame bs ∧ i.encodable = true := by
  unfold decodeFrame at h
  split at h
  · cases h
  next op addr payload hparse =>
    cases h
    exact encode_frameInstr (parseFrame_eq_ok_iff.mp hparse)

/-- Every code that decodes is the encoding of its instruction (spec R80, R90, R113). -/
theorem encode_of_decode {c : Code} {i : Instr} (h : decode c = .ok i) : encode i = c ∧ i.encodable = true := by
  cases c with
  | request w => exact ⟨encode_of_decodeRequest h, encodable_of_decodeRequest h⟩
  | frame bs => exact encode_of_decodeFrame h

/-- Decoding, told by the encoder: a code decodes to the canonical instruction that it encodes. -/
theorem decode_eq_ok_iff {c : Code} {i : Instr} :
    decode c = .ok i ↔ encode i = c ∧ i.encodable = true ∧ i.canonical = i := by
  constructor
  · intro h
    obtain ⟨rfl, henc⟩ := encode_of_decode h
    exact ⟨rfl, henc, Except.ok.inj ((decode_encode henc).symm.trans h)⟩
  · rintro ⟨rfl, henc, hcanon⟩
    rw [decode_encode henc, hcanon]

end Sys2Proof.Machine
end

section
/-! The rows of the opcode table: when a word has a row's fixed bits it decodes to the row's instruction, and only then
(spec R90, R91, R93; log 10). One lemma per mask. -/

namespace Sys2Proof.Machine

/-! A field under a mask of ones, in the mask's own spelling. -/

theorem and_nibbleMask (x : BitVec 4) : x &&& 0xF#4 = x := BitVec.and_allOnes

theorem and_byteMask (x : Byte) : x &&& 0xFF#8 = x := BitVec.and_allOnes

theorem and_halfMask (x : Half) : x &&& 0xFFFF#16 = x := BitVec.and_allOnes

/-- Bit 16 of a GPIO word is 0 when its address is even (spec R57). -/
theorem and_one_eq_zero_iff {a : Byte} : a &&& 0x01#8 = 0x00#8 ↔ evenAddr a = true := by
  refine ⟨fun h => ?_, Laws.even_low_zero⟩
  have hbit : (a &&& 0x01#8).getLsbD 0 = false := by rw [h]; rfl
  simpa [evenAddr] using hbit

/-- V of a word that sends a byte is that byte, when its high half is 0 (spec R93). -/
theorem and_highByte_eq_zero_iff {w : Word} :
    vField w &&& 0xFF00#16 = 0x0000#16 ↔ vField w = (w.extractLsb' 0 8).setWidth 16 := by
  constructor
  · intro h
    have hhigh : (vField w &&& 0xFF00#16).extractLsb' 8 8 = 0#8 := by rw [h]; rfl
    exact (vField_of_byteOnly (by simpa [byteOnly, BitVec.extractLsb'_and, and_byteMask] using hhigh)).symm
  · intro h
    rw [h, Laws.byte_high_zero]

section
variable {w : Word} {i : Instr} {op n : BitVec 4} {a : Byte} {v : Half}

/-- A word decodes to an instruction when it has the fields that the instruction encodes to. -/
theorem decode_request_eq_ok_iff (hencode : encode i = .request (requestWord op n a v)) (hcanon : i.canonical = i) :
    decode (.request w) = .ok i ↔
      opField w = op ∧ nField w = n ∧ aField w = a ∧ vField w = v ∧ i.encodable = true := by
  rw [decode_eq_ok_iff, hencode, Code.request.injEq, requestWord_eq_iff]
  simp only [hcanon, and_true, and_assoc]

/-- The rows with no operand (mask 0xFFFFFFFF). -/
theorem eq_wholeRow_iff (hencode : encode i = .request (requestWord op n a v)) (hcanon : i.canonical = i)
    (hencodable : i.encodable = true) : w = requestWord op n a v ↔ decode (.request w) = .ok i := by
  rw [decode_request_eq_ok_iff hencode hcanon, eq_comm, requestWord_eq_iff, eq_true hencodable, and_true]

/-- The rows that send a byte (mask 0xFFFFFF00). -/
theorem and_byteRow_iff (hencode : encode i = .request (requestWord op 0#4 0#8 ((w.extractLsb' 0 8).setWidth 16)))
    (hcanon : i.canonical = i) (hencodable : i.encodable = true) :
    w &&& requestWord 0xF#4 0xF#4 0xFF#8 0xFF00#16 = requestWord op 0#4 0#8 0#16 ↔ decode (.request w) = .ok i := by
  rw [decode_request_eq_ok_iff hencode hcanon, and_eq_iff_fields]
  simp [hencodable, and_highByte_eq_zero_iff, and_nibbleMask, and_byteMask]

/-- The GPIO rows with a value in V (mask 0xFF010000). -/
theorem and_gpioValueRow_iff (hencode : encode i = .request (requestWord op 0#4 (aField w) (vField w)))
    (hcanon : i.canonical = i) (hencodable : i.encodable = evenAddr (aField w)) :
    w &&& requestWord 0xF#4 0xF#4 0x01#8 0x0000#16 = requestWord op 0#4 0#8 0#16 ↔ decode (.request w) = .ok i := by
  rw [decode_request_eq_ok_iff hencode hcanon, and_eq_iff_fields]
  simp [hencodable, and_one_eq_zero_iff, and_nibbleMask]

/-- The GPIO row with V = 0 (mask 0xFF01FFFF). -/
theorem and_gpioReadRow_iff (hencode : encode i = .request (requestWord op 0#4 (aField w) 0#16))
    (hcanon : i.canonical = i) (hencodable : i.encodable = evenAddr (aField w)) :
    w &&& requestWord 0xF#4 0xF#4 0x01#8 0xFFFF#16 = requestWord op 0#4 0#8 0#16 ↔ decode (.request w) = .ok i := by
  rw [decode_request_eq_ok_iff hencode hcanon, and_eq_iff_fields]
  simp [hencodable, and_one_eq_zero_iff, and_nibbleMask, and_halfMask, and_comm]

/-- The rows of a command with the length in N (mask 0xF0FFFFFF). -/
theorem and_commandRow_iff (hencode : encode i = .request (requestWord op (nField w) a 0#16)) (hcanon : i.canonical = i)
    (hencodable : i.encodable = true) :
    w &&& requestWord 0xF#4 0x0#4 0xFF#8 0xFFFF#16 = requestWord op 0#4 a 0#16 ↔ decode (.request w) = .ok i := by
  rw [decode_request_eq_ok_iff hencode hcanon, and_eq_iff_fields]
  simp [hencodable, and_nibbleMask, and_byteMask, and_halfMask]

end

/-- RTC_TXN's own row takes the cmd and n that are no command's row (spec R188; log 10). -/
theorem decodeTxn_eq_rtcTxn_iff {c : Byte} {n : BitVec 4} :
    decodeTxn c n = .rtcTxn c n ↔
      ¬(c = 0x60#8 ∧ n = 0#4) ∧ ¬(c = 0x62#8 ∧ n = 1#4) ∧ ¬(c = 0x63#8 ∧ n = 1#4) ∧ ¬(c = 0x64#8 ∧ n = 7#4) ∧
        ¬(c = 0x65#8 ∧ n = 7#4) ∧ c ≠ 0x66#8 ∧ c ≠ 0x67#8 ∧ c ≠ 0x68#8 ∧ c ≠ 0x69#8 := by
  unfold decodeTxn
  split_ifs <;> simp_all

/-- The words of RTC_TXN's own row: the fixed bits of the row (mask 0xF000FFFF), but none of the nine commands' rows. -/
theorem and_txnRow_iff {w : Word} :
    (w &&& requestWord 0xF#4 0x0#4 0x00#8 0xFFFF#16 = requestWord 0x7#4 0#4 0#8 0#16 ∧
        w ∉ [requestWord 0x7#4 0#4 0x60#8 0#16, requestWord 0x7#4 1#4 0x62#8 0#16, requestWord 0x7#4 1#4 0x63#8 0#16,
          requestWord 0x7#4 7#4 0x64#8 0#16, requestWord 0x7#4 7#4 0x65#8 0#16] ∧
        w &&& requestWord 0xF#4 0x0#4 0xFF#8 0xFFFF#16 ∉
          [requestWord 0x7#4 0#4 0x66#8 0#16, requestWord 0x7#4 0#4 0x67#8 0#16, requestWord 0x7#4 0#4 0x68#8 0#16,
            requestWord 0x7#4 0#4 0x69#8 0#16]) ↔
      decode (.request w) = .ok (.rtcTxn (aField w) (nField w)) := by
  have hdecode : decode (.request w) = .ok (.rtcTxn (aField w) (nField w)) ↔
      (opField w = 0x7#4 ∧ vField w = 0#16) ∧ decodeTxn (aField w) (nField w) = .rtcTxn (aField w) (nField w) := by
    rw [decode_eq_ok_iff, encode, Code.request.injEq, requestWord_eq_iff]
    simp [Instr.encodable, Instr.canonical, and_assoc]
  have hfixed : w &&& requestWord 0xF#4 0x0#4 0x00#8 0xFFFF#16 = requestWord 0x7#4 0#4 0#8 0#16 ↔
      opField w = 0x7#4 ∧ vField w = 0#16 := by
    rw [and_eq_iff_fields]
    simp [and_nibbleMask, and_halfMask]
  rw [hdecode, hfixed, decodeTxn_eq_rtcTxn_iff]
  refine and_congr_right fun ⟨hop, hv⟩ => ?_
  have hrow {n : BitVec 4} {c : Byte} : w = requestWord 0x7#4 n c 0#16 ↔ aField w = c ∧ nField w = n := by
    rw [eq_comm, requestWord_eq_iff]
    simp [hop, hv, and_comm]
  have hcommand {c : Byte} :
      w &&& requestWord 0xF#4 0x0#4 0xFF#8 0xFFFF#16 = requestWord 0x7#4 0#4 c 0#16 ↔ aField w = c := by
    rw [and_eq_iff_fields]
    simp [hop, hv, and_byteMask]
  simp only [List.mem_cons, List.not_mem_nil, or_false, not_or, hrow, hcommand, and_assoc, ne_eq]

end Sys2Proof.Machine
end

section
/-! Submission at IDLE, with the whole next state (spec R92, R265), and the words of the requests (spec R90). -/

namespace Sys2Proof.Machine

/-- A request word as its four fields shifted to their places (spec R90). -/
theorem requestWord_eq_or (op n : BitVec 4) (a : Byte) (v : Half) :
    requestWord op n a v =
      op.setWidth 32 <<< 28 ||| n.setWidth 32 <<< 24 ||| a.setWidth 32 <<< 16 ||| v.setWidth 32 := by
  rw [← BitVec.setWidth_eq (requestWord op n a v)]
  exact BitVec.setWidth_append_append_append_eq_shiftLeft_setWidth_or

/-- The word that sends a byte (spec R161, R163). -/
theorem byteWord_eq_or (op : BitVec 4) (x : Byte) :
    requestWord op 0#4 0#8 (x.setWidth 16) = requestWord op 0#4 0#8 0#16 ||| x.setWidth 32 := by
  simp [requestWord_eq_or]

/-- The word of a GPIO access (spec R144, R145, R147). -/
theorem gpioWord_eq_or (op : BitVec 4) (a : Byte) (v : Half) :
    requestWord op 0#4 a v = requestWord op 0#4 0#8 0#16 ||| a.setWidth 32 <<< 16 ||| v.setWidth 32 := by
  simp [requestWord_eq_or]

/-- The word of a transaction (spec R180). -/
theorem txnWord_eq_or (c : Byte) (n : BitVec 4) :
    requestWord 0x7#4 n c 0#16 = requestWord 0x7#4 0#4 c 0#16 ||| n.setWidth 32 <<< 24 := by
  simp only [requestWord_eq_or 0x7#4 0#4 c, requestWord_eq_or 0x7#4 n c, BitVec.setWidth_zero, BitVec.zero_shiftLeft,
    BitVec.or_zero]
  rw [BitVec.or_assoc, BitVec.or_comm (n.setWidth 32 <<< 24), ← BitVec.or_assoc]

theorem evenAddr_iff {a : Byte} : evenAddr a = true ↔ a.toNat % 2 = 0 := by
  simp [evenAddr, BitVec.getLsbD, Nat.testBit_zero]

theorem clearBuf_getElem (n : Nat) (buf : Vector Byte 7) (k : Fin 7) :
    (clearBuf n buf)[k] = if k.val < n then 0x00#8 else buf[k] := by
  simp [clearBuf]

/-- A request that clears nothing, submitted at IDLE: accepted with BUF unchanged, or refused (spec R92, R265). -/
theorem request_idle_of_clears_zero {p : Plan} {s : State} {w : Word} {wf : Prop} [Decidable wf] (hidle : s.phase = .idle)
    (hclears : p.clears = 0) (hword : p.word = w) (hok : p.ok = true ↔ wf) :
    request p s =
      .next (if wf then
          { s with req := w, err := 0#4, done := false, result := 0x0000#16, seqIdx := 0#9, phase := .busy }
        else { s with req := w, err := 5#4, done := true }) := by
  rw [request_idle hidle, submit, hword]
  by_cases h : wf
  · rw [if_pos h, if_pos (hok.mpr h), accept, hclears, clearBuf_zero, hword]
    rfl
  · rw [if_neg h, if_neg (mt hok.mp h)]
    rfl

/-- A well-formed request that clears nothing is accepted at IDLE with BUF unchanged (spec R92). -/
theorem request_accepted_of_clears_zero {p : Plan} {s : State} {w : Word} (hidle : s.phase = .idle)
    (hclears : p.clears = 0) (hword : p.word = w) (hok : p.ok = true) :
    request p s =
      .next { s with req := w, err := 0#4, done := false, result := 0x0000#16, seqIdx := 0#9, phase := .busy } :=
  (request_idle_of_clears_zero hidle hclears hword (iff_true_intro hok)).trans (by rw [if_pos trivial])

/-- A transaction of one of the nine commands with its DATALEN is accepted at IDLE; a read clears BUF[0..n-1] (spec R92, R99). -/
theorem request_txnPlan_accepted {c : Byte} {n : BitVec 4} {s : State} (hidle : s.phase = .idle)
    (hlen : dataLen s.params c = some n.toNat) :
    ∃ b : Vector Byte 7, (∀ k : Fin 7, b[k] = if isReadCommand c = true ∧ k.val < n.toNat then 0x00#8 else s.buf[k]) ∧
      request (txnPlan c n s) s =
        .next { s with req := requestWord 0x7#4 0#4 c 0#16 ||| n.setWidth 32 <<< 24, err := 0#4, done := false,
                       result := 0x0000#16, seqIdx := 0#9, phase := .busy, buf := b } := by
  have hok : (txnPlan c n s).ok = true := by simp [txnPlan, txnOk, hlen]
  refine ⟨clearBuf (txnPlan c n s).clears s.buf, fun k => ?_, ?_⟩
  · rw [clearBuf_getElem, txnPlan]
    cases isReadCommand c <;> simp
  · rw [request_idle hidle, submit, if_pos hok, ← txnWord_eq_or]
    rfl

/-- Any other transaction is refused at IDLE (spec R93, R265). -/
theorem request_txnPlan_refused {c : Byte} {n : BitVec 4} {s : State} (hidle : s.phase = .idle)
    (hlen : dataLen s.params c ≠ some n.toNat) :
    request (txnPlan c n s) s =
      .next { s with req := requestWord 0x7#4 0#4 c 0#16 ||| n.setWidth 32 <<< 24, err := 5#4, done := true } := by
  have hok : (txnPlan c n s).ok = false := by simp [txnPlan, txnOk, hlen]
  rw [request_idle hidle, submit, if_neg (Bool.not_eq_true _ ▸ hok), ← txnWord_eq_or]
  rfl

/-- A submitted word that decodes to no instruction is refused (spec R92, R265). -/
theorem step_refused {s : State} {w : Word} {rest : List PortOp} {why : Reject} (hidle : s.phase = .idle)
    (hreset : s.resetReq = false) (hport : s.port = .present (.request w) :: rest) (hdec : decodeRequest w = .error why) :
    step s = .next { s with port := rest, req := w, err := 5#4, done := true } := by
  have hfetch : fetch s = some (.request w, { s with port := rest }) := by simp [fetch, hidle, hreset, hport]
  simp [step, hfetch, decode, hdec, turnAway, hidle, refuseWord, errNum]

end Sys2Proof.Machine
end

section
/-! The obligations of spec section 30: the encodings, and which submitted words are accepted. -/

namespace Sys2Proof.Proofs

open Sys2Proof.Machine

/-- Settles O1: instruction by instruction, from the fields of its word or the parts of its frame. -/
theorem decodeOfEncodeIsTheInstruction : Obligations.DecodeOfEncodeIsTheInstruction :=
  fun _ hencodable => ⟨decode_encode hencodable, canonical_eq_self⟩

/-- Settles O2: words by their fields, frames by the parser as the inverse of `Encode`. -/
theorem encodeOfDecodeIsTheCode : Obligations.EncodeOfDecodeIsTheCode :=
  fun _ _ => encode_of_decode

/-- Settles O3: each row's mask keeps the fields that its instruction's encoding fixes. -/
theorem wordsDecodeByTheirRow : Obligations.WordsDecodeByTheirRow := fun _ =>
  ⟨and_byteRow_iff (op := 0x1#4) rfl rfl rfl,
    and_byteRow_iff (op := 0x2#4) rfl rfl rfl,
    eq_wholeRow_iff (op := 0x3#4) (n := 0#4) (a := 0#8) (v := 0#16) rfl rfl rfl,
    and_gpioValueRow_iff (op := 0x4#4) rfl rfl rfl,
    and_gpioReadRow_iff (op := 0x5#4) rfl rfl rfl,
    and_gpioValueRow_iff (op := 0x6#4) rfl rfl rfl,
    eq_wholeRow_iff (op := 0x7#4) (n := 0#4) (a := 0x60#8) (v := 0#16) rfl rfl rfl,
    eq_wholeRow_iff (op := 0x7#4) (n := 1#4) (a := 0x62#8) (v := 0#16) rfl rfl rfl,
    eq_wholeRow_iff (op := 0x7#4) (n := 1#4) (a := 0x63#8) (v := 0#16) rfl rfl rfl,
    eq_wholeRow_iff (op := 0x7#4) (n := 7#4) (a := 0x64#8) (v := 0#16) rfl rfl rfl,
    eq_wholeRow_iff (op := 0x7#4) (n := 7#4) (a := 0x65#8) (v := 0#16) rfl rfl rfl,
    and_commandRow_iff (op := 0x7#4) (a := 0x66#8) rfl rfl rfl,
    and_commandRow_iff (op := 0x7#4) (a := 0x67#8) rfl rfl rfl,
    and_commandRow_iff (op := 0x7#4) (a := 0x68#8) rfl rfl rfl,
    and_commandRow_iff (op := 0x7#4) (a := 0x69#8) rfl rfl rfl,
    and_txnRow_iff⟩

/-- Settles O13: LENGTH of an encoded frame counts what follows it. -/
theorem streamsSplitAfterAFrame : Obligations.StreamsSplitAfterAFrame := by
  intro op addr payload f rest h
  obtain ⟨-, -, hfits, -, rfl⟩ := encodeFrame_eq_ok_iff.mp h
  exact splitFrame_append hfits rest

/-- Settles O21: WF of the GPIO rows is the even address, and the length for a raw read. -/
theorem gpioRequestsAreAcceptedOrRefused : Obligations.GpioRequestsAreAcceptedOrRefused := by
  intro a v s hidle
  refine ⟨?_, ?_, ?_⟩
  · exact request_idle_of_clears_zero (p := planGpioWrite16 a v) hidle rfl (gpioWord_eq_or 0x4#4 a v) evenAddr_iff
  · exact request_idle_of_clears_zero (p := planGpioRead16 a) hidle rfl
      ((gpioWord_eq_or 0x5#4 a 0#16).trans BitVec.or_zero) evenAddr_iff
  · have hok : (planGpioReadN a v).ok = true ↔ a.toNat % 2 = 0 ∧ 1 ≤ v.toNat ∧ v.toNat ≤ 16 := by
      simp [planGpioReadN, evenAddr_iff, readLenOk]
    exact request_idle_of_clears_zero (p := planGpioReadN a v) hidle rfl (gpioWord_eq_or 0x6#4 a v) hok

/-- Settles O23: the four commands are transactions whose DATALEN is the parameter. -/
theorem timeAndAlarmFollowTheirParameter : Obligations.TimeAndAlarmFollowTheirParameter := by
  intro n s hidle q hq
  simp only [List.mem_cons, List.not_mem_nil, or_false] at hq
  obtain rfl | rfl | rfl | rfl := hq
  · exact ⟨request_txnPlan_accepted (c := 0x66#8) hidle, request_txnPlan_refused (c := 0x66#8) hidle⟩
  · exact ⟨request_txnPlan_accepted (c := 0x67#8) hidle, request_txnPlan_refused (c := 0x67#8) hidle⟩
  · exact ⟨request_txnPlan_accepted (c := 0x68#8) hidle, request_txnPlan_refused (c := 0x68#8) hidle⟩
  · exact ⟨request_txnPlan_accepted (c := 0x69#8) hidle, request_txnPlan_refused (c := 0x69#8) hidle⟩

/-- Settles O5: no row of the decoder has a reserved OP, so the word is turned away. -/
theorem reservedOpsAreRefused : Obligations.ReservedOpsAreRefused :=
  fun _ _ _ hidle hreset hport hop => step_refused hidle hreset hport (decodeRequest_of_reservedOp hop)

/-- Settles O20: the three bit-bang requests are always well-formed and clear nothing. -/
theorem bitBangRequestsAreAccepted : Obligations.BitBangRequestsAreAccepted := fun x _ hidle =>
  ⟨request_accepted_of_clears_zero (p := planBbSendCmd x) hidle rfl (byteWord_eq_or 0x1#4 x) rfl,
    request_accepted_of_clears_zero (p := planBbWriteByte x) hidle rfl (byteWord_eq_or 0x2#4 x) rfl,
    request_accepted_of_clears_zero (p := planBbReadByte) hidle rfl rfl rfl⟩

/-- Settles O22: the five commands have a fixed DATALEN, which is their n. -/
theorem fixedTransactionsAreAccepted : Obligations.FixedTransactionsAreAccepted := by
  intro s hidle
  constructor
  · intro iw hiw
    simp only [List.mem_cons, List.not_mem_nil, or_false] at hiw
    obtain rfl | rfl | rfl := hiw
    · exact request_accepted_of_clears_zero (p := txnPlan 0x60#8 0#4 s) hidle rfl rfl rfl
    · exact request_accepted_of_clears_zero (p := txnPlan 0x62#8 1#4 s) hidle rfl rfl rfl
    · exact request_accepted_of_clears_zero (p := txnPlan 0x64#8 7#4 s) hidle rfl rfl rfl
  · intro iwn hiwn
    simp only [List.mem_cons, List.not_mem_nil, or_false] at hiwn
    obtain rfl | rfl := hiwn
    · obtain ⟨b, hbuf, hexec⟩ := request_txnPlan_accepted (c := 0x63#8) (n := 1#4) hidle rfl
      exact ⟨b, by simpa [isReadCommand] using hbuf, hexec⟩
    · obtain ⟨b, hbuf, hexec⟩ := request_txnPlan_accepted (c := 0x65#8) (n := 7#4) hidle rfl
      exact ⟨b, by simpa [isReadCommand] using hbuf, hexec⟩

end Sys2Proof.Proofs
end

section
/-! What `Encode` builds, byte by byte (spec R80, R81, R110), and the length of its response (spec R112, R116). -/

namespace Sys2Proof.Machine

/-- The four frame opcodes (spec R86). -/
theorem isFrameOp_iff {op : Byte} : isFrameOp op = true ↔ op = 0xF5#8 ∨ op = 0xF6#8 ∨ op = 0xF7#8 ∨ op = 0xF8#8 := by
  simp [isFrameOp, or_assoc]

/-- The two read opcodes (spec R82). -/
theorem isReadOp_iff {op : Byte} : isReadOp op = true ↔ op = 0xF6#8 ∨ op = 0xF8#8 := by
  simp [isReadOp]

/-- A read opcode is a frame opcode (spec R86). -/
theorem isFrameOp_of_isReadOp {op : Byte} (h : isReadOp op = true) : isFrameOp op = true :=
  isFrameOp_iff.mpr ((isReadOp_iff.mp h).elim (.inr ∘ .inl) (.inr ∘ .inr ∘ .inr))

/-- The two bytes of a little-endian u16 (spec R12). -/
theorem le_two (v : Nat) : le 2 v = [BitVec.ofNat 8 v, BitVec.ofNat 8 (v / 256)] := by
  rw [le_succ, le_succ, le_zero]

/-- The four bytes of a little-endian u32 (spec R12). -/
theorem le_four (v : Nat) :
    le 4 v = [BitVec.ofNat 8 v, BitVec.ofNat 8 (v / 256), BitVec.ofNat 8 (v / 65536), BitVec.ofNat 8 (v / 16777216)] := by
  rw [le_succ, le_succ, le_two, Nat.div_div_eq_div_mul, Nat.div_div_eq_div_mul]

/-- The two bytes of a 16-bit value, as its halves (spec R12). -/
theorem le_two_toNat (v : Half) : le 2 v.toNat = [v.setWidth 8, (v >>> 8).setWidth 8] := by
  rw [le_two, BitVec.ofNat_toNat]
  congr 2
  apply BitVec.eq_of_toNat_eq
  simp [Nat.shiftRight_eq_div_pow]

/-- A requested length, read back (spec R12, R82). -/
theorem fromLe_le_two_toNat (v : Half) : fromLe (le 2 v.toNat) = v.toNat :=
  (fromLe_le 2 v.toNat).trans (Nat.mod_eq_of_lt v.isLt)

/-- The four bytes of a 32-bit address, as its fields (spec R12). -/
theorem le_four_toNat (a : Word) :
    le 4 a.toNat = [a.extractLsb' 0 8, a.extractLsb' 8 8, a.extractLsb' 16 8, a.extractLsb' 24 8] := rfl

/-- LENGTH of a frame counts what follows it, as long as the u16 field can hold it (spec R81). -/
theorem fromLe_take_frameBytes {op : Byte} {addr : Nat} {payload : List Byte} (h : payload.length ≤ maxPayload) :
    fromLe ((frameBytes op addr payload).take 2) = payload.length + 7 := by
  rw [frameBytes_eq, List.take_left' (le_length _ _), fromLe_lengthField h]

@[simp] theorem byteAt_two_frameBytes (op : Byte) (addr : Nat) (payload : List Byte) :
    byteAt (frameBytes op addr payload) 2 = op := rfl

/-- The bytes after a frame's ADDRESS are its payload and trailer (spec R80). -/
theorem drop_seven_frameBytes (op : Byte) (addr : Nat) (payload : List Byte) :
    (frameBytes op addr payload).drop 7 = payload ++ [0x00#8, 0x00#8] := rfl

/-- The parser accepts a frame opcode only (spec R113). -/
theorem isFrameOp_of_parseFrame {bs : List Byte} {parts : Byte × Nat × List Byte} (h : parseFrame bs = .ok parts) :
    isFrameOp (byteAt bs 2) = true := by
  obtain ⟨op, addr, payload⟩ := parts
  obtain ⟨hop, -, -, -, rfl⟩ := encodeFrame_eq_ok_iff.mp (parseFrame_eq_ok_iff.mp h)
  exact hop

/-- The response length of an encoded frame: a write's single byte, a read's requested length and header (spec R116). -/
theorem respLen_of_encodeFrame {op : Byte} {addr : Nat} {payload f : List Byte} (h : encodeFrame op addr payload = .ok f) :
    respLen f = some (if isReadOp op then fromLe payload + 2 else 1) := by
  obtain ⟨hop, -, -, hread, rfl⟩ := encodeFrame_eq_ok_iff.mp h
  have hrequest (hr : isReadOp op = true) : ((frameBytes op addr payload).drop 7).take 2 = payload := by
    rw [drop_seven_frameBytes, List.take_left' (hread hr)]
  unfold respLen
  rw [byteAt_two_frameBytes]
  obtain rfl | rfl | rfl | rfl := isFrameOp_iff.mp hop
  · rfl
  · rw [hrequest rfl]
    rfl
  · rfl
  · rw [hrequest rfl]
    rfl

/-- A response of the expected length is returned without its header (spec R112). -/
theorem decodeResponse_of_length {raw : List Byte} {n : Nat} (h : raw.length = n + 2) :
    decodeResponse raw n = .ok (raw.drop 2) :=
  if_neg (not_not.mpr h)

/-- A response of any other length is PROTOCOL (spec R112). -/
theorem decodeResponse_of_length_ne {raw : List Byte} {n : Nat} (h : raw.length ≠ n + 2) :
    decodeResponse raw n = .error raw.length :=
  if_pos h

/-- `Encode`'s first refusal: the opcode (spec R110). -/
theorem encodeFrame_badOpcode {op : Byte} (hop : isFrameOp op = false) (addr : Nat) (payload : List Byte) :
    encodeFrame op addr payload = .error .badOpcode :=
  if_pos hop

/-- `Encode`'s second refusal: an address that the u32 field cannot hold (spec R110). -/
theorem encodeFrame_badAddress {op : Byte} {addr : Nat} (hop : isFrameOp op = true) (haddr : 2 ^ 32 ≤ addr)
    (payload : List Byte) : encodeFrame op addr payload = .error .badAddress := by
  rw [encodeFrame, if_neg (by simp [hop]), if_pos haddr]

/-- `Encode`'s third refusal: a payload that LENGTH cannot count (spec R110). -/
theorem encodeFrame_tooLong {op : Byte} {addr : Nat} {payload : List Byte} (hop : isFrameOp op = true)
    (haddr : addr < 2 ^ 32) (hlong : maxPayload < payload.length) :
    encodeFrame op addr payload = .error .payloadTooLong := by
  rw [encodeFrame, if_neg (by simp [hop]), if_neg haddr.not_ge, if_pos hlong]

/-- `Encode`'s fourth refusal: a read whose payload is no requested length (spec R110). -/
theorem encodeFrame_badReadPayload {op : Byte} {addr : Nat} {payload : List Byte} (hread : isReadOp op = true)
    (haddr : addr < 2 ^ 32) (hfits : payload.length ≤ maxPayload) (hne : payload.length ≠ 2) :
    encodeFrame op addr payload = .error .badReadPayload := by
  rw [encodeFrame, if_neg (by simp [isFrameOp_of_isReadOp hread]), if_neg haddr.not_ge, if_neg hfits.not_gt,
    if_pos ⟨hread, hne⟩]

/-- A write of any payload that LENGTH can count is encoded (spec R110). -/
theorem encodeFrame_write {op : Byte} {payload : List Byte} (hop : isFrameOp op = true) (hwrite : isReadOp op = false)
    (hfits : payload.length ≤ maxPayload) (addr : Word) :
    encodeFrame op addr.toNat payload = .ok (frameBytes op addr.toNat payload) :=
  encodeFrame_eq_ok_iff.mpr ⟨hop, addr.isLt, hfits, fun hread => absurd (hwrite.symm.trans hread) Bool.false_ne_true, rfl⟩

/-- A read of any requested length is encoded (spec R82, R110). -/
theorem encodeFrame_read {op : Byte} (hread : isReadOp op = true) (addr : Word) (len : Half) :
    encodeFrame op addr.toNat (le 2 len.toNat) = .ok (frameBytes op addr.toNat (le 2 len.toNat)) :=
  encodeFrame_eq_ok_iff.mpr
    ⟨isFrameOp_of_isReadOp hread, addr.isLt, by simp [maxPayload], fun _ => le_length _ _, rfl⟩

end Sys2Proof.Machine
end

section
/-! The direct codec calls, with their frame and their response length (spec R117, R120-R123). -/

namespace Sys2Proof.Machine

/-- FR_WRITE_ROM is a write call, noted in the target's shadow (spec R120). -/
theorem exec_frWriteRom (addr : Word) (payload : List Byte) (s : State) :
    exec (.frWriteRom addr payload) s =
      .next (noteRomWrite addr payload (exchangeOutcome 1 s).isOk (frameWrite opWriteRom addr payload s)) := rfl

/-- A write call makes one exchange of its frame and waits for one byte (spec R120, R122). -/
theorem frameWrite_of_fits {op : Byte} {payload : List Byte} (hop : isFrameOp op = true) (hwrite : isReadOp op = false)
    (hfits : payload.length ≤ maxPayload) (addr : Word) (s : State) :
    frameWrite op addr payload s =
      giveBack (writeReturn (exchangeOutcome 1 s)) (afterExchange (frameBytes op addr.toNat payload) 1 s) := by
  have henc := encodeFrame_write hop hwrite hfits addr
  have hcount : respCount (frameBytes op addr.toNat payload) = 1 := by
    simp [respCount, respLen_of_encodeFrame henc, hwrite]
  simp only [frameWrite, henc, transactOutcome, afterTransact, hcount]

/-- A write call whose payload is too long sends nothing (spec R110). -/
theorem frameWrite_of_tooLong {op : Byte} {payload : List Byte} (hop : isFrameOp op = true)
    (hlong : maxPayload < payload.length) (addr : Word) (s : State) :
    frameWrite op addr payload s = giveBack (.error .refused) s := by
  simp only [frameWrite, encodeFrame_tooLong hop addr.isLt hlong]

/-- A completed exchange has the expected length, so PROTOCOL never arises (spec R112, R121). -/
theorem readReturn_of_exchangeOutcome_ok {len : Nat} {s : State} {rs : List Byte}
    (hout : exchangeOutcome (len + 2) s = .ok rs) : readReturn len (.ok rs) = .bytes (rs.drop 2) := by
  simp only [readReturn, decodeResponse_of_length (exchangeOutcome_ok_length hout)]

/-- A read call makes one exchange of its frame and waits for the header and the requested bytes (spec R121, R123). -/
theorem frameRead_eq {op : Byte} (hread : isReadOp op = true) (addr : Word) (len : Half) (s : State) :
    frameRead op addr len s =
      giveBack (readReturn len.toNat (exchangeOutcome (len.toNat + 2) s))
        (afterExchange (frameBytes op addr.toNat (le 2 len.toNat)) (len.toNat + 2) s) := by
  have henc := encodeFrame_read hread addr len
  have hcount : respCount (frameBytes op addr.toNat (le 2 len.toNat)) = len.toNat + 2 := by
    simp [respCount, respLen_of_encodeFrame henc, hread, fromLe_le_two_toNat]
  simp only [frameRead, henc, transactOutcome, afterTransact, hcount]

/-- The shadow of the register at word g after a ROM write to word w: a 2-byte write to the register's own word is its GPIO
write exchange, and no other write touches it (spec R36, R120; log 12). -/
theorem shadowWord_cases (g w : Nat) (payload : List Byte) (out : LinkOutcome) (old : Option Half) :
    (w = g → ∀ lo hi, payload = [lo, hi] →
      (∀ rs, out = .ok rs → shadowWord g w payload out.isOk old = some (hi ++ lo)) ∧
      (∀ e, out = .fail e → shadowWord g w payload out.isOk old = none)) ∧
    (w ≠ g ∨ payload.length ≠ 2 → shadowWord g w payload out.isOk old = old) := by
  constructor
  · rintro rfl lo hi rfl
    have hvalue : BitVec.ofNat 16 (fromLe [lo, hi]) = hi ++ lo := by
      have hlt : fromLe [lo, hi] < 2 ^ 16 := by simpa using fromLe_lt [lo, hi]
      apply BitVec.eq_of_toNat_eq
      rw [BitVec.toNat_ofNat, Nat.mod_eq_of_lt hlt, BitVec.toNat_append, ← Nat.shiftLeft_add_eq_or_of_lt lo.isLt,
        Nat.shiftLeft_eq]
      simp only [fromLe_cons, fromLe_nil]
      omega
    constructor
    · rintro rs rfl
      simp only [shadowWord, LinkOutcome.isOk, List.length_cons, List.length_nil, and_self, if_true, hvalue]
    · rintro e rfl
      simp [shadowWord, LinkOutcome.isOk]
  · intro hother
    exact if_neg fun ⟨hw, hlen⟩ => hother.elim (· hw) (· hlen)

/-- A presented byte string that is no frame is turned away with REFUSED (spec R110, R124; log 9). -/
theorem step_rejected {s : State} {bs : List Byte} {rest : List PortOp} {why : Reject} (hidle : s.phase = .idle)
    (hreset : s.resetReq = false) (hport : s.port = .present (.frame bs) :: rest) (hdec : decodeFrame bs = .error why) :
    step s = .next { s with port := rest, codecRet := .error .refused } := by
  have hfetch : fetch s = some (.frame bs, { s with port := rest }) := by simp [fetch, hidle, hreset, hport]
  simp [step, hfetch, decode, hdec, turnAway, hidle, giveBack]

/-- What does not carry a frame opcode decodes to no instruction (spec R113, R124). -/
theorem decodeFrame_of_not_isFrameOp {bs : List Byte} (h : isFrameOp (byteAt bs 2) = false) :
    ∃ why, decodeFrame bs = .error why := by
  cases hparse : parseFrame bs with
  | error why => exact ⟨.frame why, by simp only [decodeFrame, hparse]⟩
  | ok parts => exact nomatch h.symm.trans (isFrameOp_of_parseFrame hparse)

end Sys2Proof.Machine
end

section
/-! The observation record in order (spec R39): every exchange, of an access or of a direct call, is of a frame that `Encode`
builds, and waits for the frame's own response. -/

namespace Sys2Proof.Machine

/-- An exchange of an encoded frame, waiting for its response length, leaves an entry in order (spec R39, R62, R116). -/
theorem recordOk_exchange {op : Byte} {addr : Nat} {payload f : List Byte} {r : Nat} (henc : encodeFrame op addr payload = .ok f)
    (hlen : respLen f = some r) (s : State) : RecordOk ⟨f, r, exchangeOutcome r s⟩ := by
  refine ⟨⟨op, addr, payload, henc⟩, hlen, fun rs => exchangeOutcome_ok_length, fun hshort => ?_⟩
  rcases exchangeOutcome_fail_cases hshort with ⟨hlt, ⟨hc, -⟩ | ⟨hc, -⟩ | ⟨-, -, hsome⟩⟩
  · cases hc
  · cases hc
  · have hpos : 0 < (available s).length := List.length_pos_iff.mpr hsome
    show 2 ≤ r
    omega

/-- `Transact` of an encoded frame leaves an entry in order (spec R116, R117). -/
theorem recordOk_transact {op : Byte} {addr : Nat} {payload f : List Byte} (henc : encodeFrame op addr payload = .ok f)
    (s : State) : RecordOk ⟨f, respCount f, exchangeOutcome (respCount f) s⟩ :=
  recordOk_exchange henc (by rw [respCount, respLen_of_encodeFrame henc]; rfl) s

/-- A ROM word address of a GPIO register fits a frame's ADDRESS (spec R53). -/
theorem gpioWordAddr_lt (a : Byte) : gpioWordAddr a < 2 ^ 32 :=
  lt_trans (a >>> 1).isLt (by norm_num)

/-- An access sends a frame that `Encode` builds, and waits for that frame's response (spec R116, R140-R142). -/
theorem accessFrame_encoded (acc : Access) :
    ∃ op addr payload, encodeFrame op addr payload = .ok (accessFrame acc) ∧
      respLen (accessFrame acc) = some (accessCount acc) := by
  have hfits (v : Nat) : (le 2 v).length ≤ maxPayload := by simp [maxPayload]
  have henc {op : Byte} (hop : isFrameOp op = true) (a : Byte) (v : Nat) :
      encodeFrame op (gpioWordAddr a) (le 2 v) = .ok (frameBytes op (gpioWordAddr a) (le 2 v)) :=
    encodeFrame_eq_ok_iff.mpr ⟨hop, gpioWordAddr_lt a, hfits v, fun _ => le_length 2 v, rfl⟩
  cases acc with
  | gpioWrite a v =>
    have h := henc (op := opWriteRom) rfl a v.toNat
    exact ⟨_, _, _, h, respLen_of_encodeFrame h⟩
  | gpioRead a act =>
    have h := henc (op := opReadRom) rfl a 2
    exact ⟨_, _, _, h, respLen_of_encodeFrame h⟩
  | gpioReadN a len =>
    have h := henc (op := opReadRom) rfl a len.toNat
    refine ⟨_, _, _, h, (respLen_of_encodeFrame h).trans ?_⟩
    rw [fromLe_le_two_toNat]
    rfl

/-- The exchange of an access leaves an entry in order (spec R39, R143). -/
theorem recordOk_access (acc : Access) (s : State) :
    RecordOk ⟨accessFrame acc, accessCount acc, exchangeOutcome (accessCount acc) s⟩ := by
  obtain ⟨op, addr, payload, henc, hlen⟩ := accessFrame_encoded acc
  exact recordOk_exchange henc hlen s

/-- A record that did not change stays in order. -/
theorem HistoryOk.of_history_eq {s t : State} (h : HistoryOk s) (heq : t.history = s.history) : HistoryOk t := by
  rwa [HistoryOk, heq]

/-- A record that gained an entry in order stays in order. -/
theorem HistoryOk.of_append {s t : State} {r : ExchangeRecord} (h : HistoryOk s) (hr : RecordOk r)
    (heq : t.history = s.history ++ [r]) : HistoryOk t := by
  rw [HistoryOk, heq]
  exact List.forall_mem_append.mpr ⟨h, List.forall_mem_singleton.mpr hr⟩

/-- A write call keeps the record in order (spec R110, R117). -/
theorem HistoryOk.of_frameWrite {s : State} (h : HistoryOk s) (op : Byte) (addr : Word) (payload : List Byte) :
    HistoryOk (frameWrite op addr payload s) := by
  rcases frameWrite_cases op addr payload s with ⟨why, -, heq⟩ | ⟨f, henc, heq⟩ <;> rw [heq]
  · exact h.of_history_eq rfl
  · exact h.of_append (recordOk_transact henc s) rfl

/-- A read call keeps the record in order (spec R110, R117). -/
theorem HistoryOk.of_frameRead {s : State} (h : HistoryOk s) (op : Byte) (addr : Word) (len : Half) :
    HistoryOk (frameRead op addr len s) := by
  rcases frameRead_cases op addr len s with ⟨why, -, heq⟩ | ⟨f, henc, heq⟩ <;> rw [heq]
  · exact h.of_history_eq rfl
  · exact h.of_append (recordOk_transact henc s) rfl

/-- A direct call of the codec keeps the record in order (spec R117, R120-R123). -/
theorem HistoryOk.of_frameCall {i : Instr} {s t : State} (h : HistoryOk s) (hplan : planOf i s = none)
    (hexec : exec i s = .next t) : HistoryOk t := by
  cases i with
  | frWriteRom addr payload =>
    cases hexec
    exact (h.of_frameWrite opWriteRom addr payload).of_history_eq rfl
  | frWriteRam addr payload =>
    cases hexec
    exact h.of_frameWrite opWriteRam addr payload
  | frReadRom addr len =>
    cases hexec
    exact h.of_frameRead opReadRom addr len
  | frReadRam addr len =>
    cases hexec
    exact h.of_frameRead opReadRam addr len
  | _ => cases hplan

/-- Every operation a step can make keeps the record in order. -/
theorem HistoryOk.of_stepTo {s t : State} (h : HistoryOk s) (hstep : StepTo s t) : HistoryOk t := by
  cases hstep with
  | reset | wait | writeBuf | refuse | reject => exact h.of_history_eq rfl
  | submit rest i p => exact h.of_history_eq (submit_history p { s with port := rest })
  | call rest i _ hidle hplan hexec =>
    have hport : HistoryOk { s with port := rest } := h.of_history_eq rfl
    exact hport.of_frameCall ((planOf_congr i rfl rfl).trans hplan) hexec
  | access i p acc => exact h.of_append (recordOk_access acc s) (engineStep_history p acc s)

end Sys2Proof.Machine
end

section
/-! The obligations of spec section 40: the frame codec. -/

namespace Sys2Proof.Proofs

open Sys2Proof.Machine

/-- Settles O57: by the operation the step made; it records an access's exchange, a direct call's, or none. -/
theorem recordedExchangesAreWellFormed : Obligations.RecordedExchangesAreWellFormed :=
  fun _ _ hrecord hstep => hrecord.of_stepTo (stepTo_of_step hstep)

/-- Settles O6: the branches of `Encode`, in order, and the layout by its bytes. -/
theorem encodeRefusesOrBuildsTheLayout : Obligations.EncodeRefusesOrBuildsTheLayout := by
  intro op addr payload known read
  have hknown : isFrameOp op = true ↔ known := isFrameOp_iff
  have hread : isReadOp op = true ↔ read := isReadOp_iff
  refine ⟨fun hop => encodeFrame_badOpcode (eq_false_of_ne_true (hknown.not.mpr hop)) addr payload,
    fun hop haddr => encodeFrame_badAddress (hknown.mpr hop) haddr payload,
    fun hop => encodeFrame_tooLong (hknown.mpr hop),
    fun hop => encodeFrame_badReadPayload (hread.mpr hop),
    fun hop haddr hfits hlen => encodeFrame_eq_ok_iff.mpr ⟨hknown.mpr hop, haddr, hfits, hlen ∘ hread.mp, ?_⟩⟩
  rw [frameBytes_eq, le_two, le_four]
  simp

/-- Settles O7: from LENGTH's value and the length of the layout. -/
theorem frameLengthLaw : Obligations.FrameLengthLaw := by
  intro op addr payload f h
  obtain ⟨-, -, hfits, -, rfl⟩ := encodeFrame_eq_ok_iff.mp h
  rw [fromLe_take_frameBytes hfits, frameBytes_length]
  omega

/-- Settles O8: the parser as the inverse of `Encode`, and LENGTH's value. -/
theorem parseOfEncodeRoundTrip : Obligations.ParseOfEncodeRoundTrip := by
  intro op addr payload f h
  obtain ⟨-, -, hfits, -, hf⟩ := encodeFrame_eq_ok_iff.mp h
  refine ⟨parseFrame_eq_ok_iff.mpr h, ?_⟩
  rw [← hf, fromLe_take_frameBytes hfits, List.length_drop, frameBytes_length]
  omega

/-- Settles O9: the parser and `Encode` are inverse to each other. -/
theorem parserAcceptsExactlyEncodedFrames : Obligations.ParserAcceptsExactlyEncodedFrames :=
  fun _ _ _ _ => parseFrame_eq_ok_iff

/-- Settles O11: a read's payload is its requested length. -/
theorem responseLengthOfEncodedFrames : Obligations.ResponseLengthOfEncodedFrames := by
  intro op addr payload f h
  rw [respLen_of_encodeFrame h]
  constructor
  · rintro (rfl | rfl) <;> rfl
  · rintro L hop rfl
    rw [if_pos (isReadOp_iff.mpr hop), ← le_two_toNat, fromLe_le_two_toNat]

/-- Settles O12: `Encode` and the parser know the four opcodes only, and the port decodes frames with the parser. -/
theorem reservedFrameOpcodesNeverReachTheLink : Obligations.ReservedFrameOpcodesNeverReachTheLink := by
  intro op hreserved
  have hop : isFrameOp op = false := by
    simpa [isFrameOp, and_assoc] using hreserved
  refine ⟨fun addr payload f h => ?_, fun bs parts hbs h => ?_, fun s bs rest hbs hidle hreset hport => ?_⟩
  · rw [encodeFrame_badOpcode hop addr payload] at h
    cases h
  · have hknown : isFrameOp op = true := hbs ▸ isFrameOp_of_parseFrame h
    exact nomatch hop.symm.trans hknown
  · obtain ⟨why, hdec⟩ := decodeFrame_of_not_isFrameOp (bs := bs) (hbs ▸ hop)
    exact step_rejected hidle hreset hport hdec

/-- Settles O43: one write call, and for the ROM space the shadow of each register by the word it stands at. -/
theorem frameWritesMakeOneExchange : Obligations.FrameWritesMakeOneExchange := by
  intro addr payload s hfits f ret
  have hret : writeReturn (exchangeOutcome 1 s) = ret := by
    cases hout : exchangeOutcome 1 s <;> simp only [ret, hout, writeReturn]
  have hframe (op : Byte) : frameBytes op addr.toNat payload = f op := by
    rw [frameBytes_eq, le_two, le_four_toNat]
    simp [f]
  have hwrite {op : Byte} (hop : isFrameOp op = true) (hw : isReadOp op = false) :
      frameWrite op addr payload s = giveBack ret (afterExchange (f op) 1 s) := by
    rw [frameWrite_of_fits hop hw hfits, hret, hframe]
  refine ⟨congrArg Host.Outcome.next (hwrite rfl rfl),
    shadowRomWrite addr.toNat payload (exchangeOutcome 1 s).isOk s.shadow, ?_, ?_⟩
  · rw [exec_frWriteRom, hwrite rfl rfl]
    rfl
  · intro q hq
    simp only [List.mem_cons, List.not_mem_nil, or_false] at hq
    obtain rfl | rfl | rfl := hq
    · exact shadowWord_cases 0x62 addr.toNat payload (exchangeOutcome 1 s) s.shadow.data
    · exact shadowWord_cases 0x63 addr.toNat payload (exchangeOutcome 1 s) s.shadow.ctrl
    · exact shadowWord_cases 0x64 addr.toNat payload (exchangeOutcome 1 s) s.shadow.re

/-- Settles O44: one read call; a completed exchange has the length that `DecodeResponse` expects. -/
theorem frameReadsMakeOneExchange : Obligations.FrameReadsMakeOneExchange := by
  intro addr len s f ret
  have hret : readReturn len.toNat (exchangeOutcome (len.toNat + 2) s) = ret := by
    cases hout : exchangeOutcome (len.toNat + 2) s with
    | ok rs => simp only [ret, hout, readReturn_of_exchangeOutcome_ok hout]
    | fail c => simp only [ret, hout, readReturn]
  have hframe (op : Byte) : frameBytes op addr.toNat (le 2 len.toNat) = f op := by
    rw [frameBytes_eq, le_two_toNat, le_two, le_four_toNat]
    simp [f]
  have hcall {op : Byte} (hop : isReadOp op = true) :
      frameRead op addr len s = giveBack ret (afterExchange (f op) (len.toNat + 2) s) := by
    rw [frameRead_eq hop, hret, hframe]
  exact ⟨congrArg Host.Outcome.next (hcall rfl), congrArg Host.Outcome.next (hcall rfl)⟩

/-- Settles O10: the two branches of `DecodeResponse`. -/
theorem responseDecodingChecksTheLengthOnly : Obligations.ResponseDecodingChecksTheLengthOnly := by
  refine fun raw n => ⟨decodeResponse_of_length_ne, ?_⟩
  rintro h₀ h₁ data rfl rfl
  exact decodeResponse_of_length rfl

/-- Settles O45: `Encode` refuses the payload, which is too long to be a GPIO write exchange. -/
theorem oversizedPayloadsAreRefused : Obligations.OversizedPayloadsAreRefused := by
  intro addr payload s hlong
  have hwrite {op : Byte} (hop : isFrameOp op = true) : frameWrite op addr payload s = giveBack (.error .refused) s :=
    frameWrite_of_tooLong hop hlong addr s
  refine ⟨?_, congrArg Host.Outcome.next (hwrite rfl)⟩
  rw [exec_frWriteRom, hwrite rfl, noteRomWrite, shadowRomWrite_of_length_ne (by omega)]
  rfl

end Sys2Proof.Proofs
end

section
/-! One engine step of a request, field by field (spec R143), and which step of the machine it is (spec R21, R31). -/

namespace Sys2Proof.Machine

section
variable (p : Plan) (acc : Access) (s : State)

@[simp] theorem engineStep_rx : (engineStep p acc s).rx = (available s).drop (accessCount acc) := by
  obtain ⟨_, _, _, _, h⟩ := engineStep_shape p acc s; simp [h]
@[simp] theorem engineStep_answers : (engineStep p acc s).answers = s.answers.tail := by
  obtain ⟨_, _, _, _, h⟩ := engineStep_shape p acc s; simp [h]
@[simp] theorem engineStep_resetReq : (engineStep p acc s).resetReq = s.resetReq := by
  obtain ⟨_, _, _, _, h⟩ := engineStep_shape p acc s; simp [h]
@[simp] theorem engineStep_codecRet : (engineStep p acc s).codecRet = s.codecRet := by
  obtain ⟨_, _, _, _, h⟩ := engineStep_shape p acc s; simp [h]
end

/-- An engine step whose exchange completes advances the index, and ends the request at SEQ_LEN (spec R24, R25, R143). -/
theorem engineStep_ok_eq {p : Plan} {acc : Access} {s : State} {rs : List Byte}
    (hout : exchangeOutcome (accessCount acc) s = .ok rs) :
    engineStep p acc s =
      { afterAccess acc s with
        seqIdx := s.seqIdx + 1#9
        phase := if s.seqIdx.toNat + 1 = p.seq.length then .idle else s.phase
        done := if s.seqIdx.toNat + 1 = p.seq.length then true else s.done } := by
  rw [engineStep_ok hout]
  rcases advance_cases p (afterAccess acc s) with ⟨hend, h⟩ | ⟨hon, h⟩ <;> rw [h]
  · rw [afterAccess_seqIdx] at hend
    simp [hend, complete]
  · rw [afterAccess_seqIdx] at hon
    simp [hon]

/-- ERR after a link error is raised: the first error's number is kept (spec R260, R261). -/
theorem raiseErr_failErr (err : BitVec 4) (e : LinkFail) :
    raiseErr err (failErr e) = if err = 0#4 then failNumber e else err := by
  cases e <;> rfl

/-- A failed exchange ends a request that has no Close (spec R268). -/
theorem engineStep_fail_of_no_close {p : Plan} {acc : Access} {s : State} {e : LinkFail} (hclose : p.close = none)
    (hout : exchangeOutcome (accessCount acc) s = .fail e) :
    engineStep p acc s =
      { afterAccess acc s with phase := .idle, done := true, err := if s.err = 0#4 then failNumber e else s.err } := by
  rw [engineStep_fail hout, takeError, hclose, ← raiseErr_failErr, ← afterAccess_err acc s]
  rfl

/-- A request executed while BUSY at one of its accesses makes the engine step of that access (spec R143; log 1). -/
theorem exec_busy {i : Instr} {s : State} {p : Plan} {acc : Access} (hbusy : s.phase = .busy) (hplan : planOf i s = some p)
    (hok : p.ok = true) (hacc : p.seq[s.seqIdx.toNat]? = some acc) : exec i s = .next (engineStep p acc s) := by
  rw [exec_eq_request hplan, request_busy hbusy hok hacc]

/-- At IDLE every instruction answers a next state: a request is submitted, a frame is a direct call (spec R92, R117). -/
theorem exec_next_of_idle {s : State} (hidle : s.phase = .idle) (i : Instr) : ∃ t, exec i s = .next t := by
  cases hplan : planOf i s with
  | none => exact exec_frame_next hplan
  | some p => exact ⟨submit p s, by rw [exec_eq_request hplan, request_idle hidle]⟩

/-- At IDLE a code that is no instruction is turned away to a next state (spec R92, R110). -/
theorem turnAway_next_of_idle {s : State} (hidle : s.phase = .idle) (c : Code) : ∃ t, turnAway c s = .next t := by
  unfold turnAway
  cases c <;> simp [hidle]

/-- While BUSY the next code is the running request's (spec R21). -/
theorem fetch_busy {s : State} (hbusy : s.phase = .busy) (hreset : s.resetReq = false) :
    fetch s = some (.request s.req, s) := by
  simp [fetch, hbusy, hreset]

/-- At IDLE the next code is the one presented first, taken from the port (spec R31). -/
theorem fetch_present {s : State} {c : Code} {rest : List PortOp} (hidle : s.phase = .idle) (hreset : s.resetReq = false)
    (hport : s.port = .present c :: rest) : fetch s = some (c, { s with port := rest }) := by
  simp [fetch, hidle, hreset, hport]

/-- A step with a code to execute that is an instruction executes it (spec R92, R143). -/
theorem step_of_fetch {s s' : State} {c : Code} {i : Instr} (hfetch : fetch s = some (c, s')) (hdec : decode c = .ok i) :
    step s = exec i s' := by
  simp only [step, hfetch, hdec]

end Sys2Proof.Machine
end

section
/-! The accesses of the GPIO proxy: their frames, byte by byte, and what they leave in the state (spec R140-R142). -/

namespace Sys2Proof.Machine

/-- The frame of a GPIO access with a payload of two bytes (spec R53, R80, R140-R142). -/
theorem frameBytes_gpio (op a lo hi : Byte) :
    frameBytes op (gpioWordAddr a) [lo, hi] =
      [0x09#8, 0x00#8, op, a >>> 1, 0x00#8, 0x00#8, 0x00#8, lo, hi, 0x00#8, 0x00#8] := by
  have hlt : gpioWordAddr a < 256 := (a >>> 1).isLt
  have haddr : le 4 (gpioWordAddr a) = [a >>> 1, 0x00#8, 0x00#8, 0x00#8] := by
    rw [le_four, Nat.div_eq_of_lt hlt, Nat.div_eq_of_lt (by omega), Nat.div_eq_of_lt (by omega), gpioWordAddr,
      BitVec.ofNat_toNat, BitVec.setWidth_eq]
  rw [frameBytes_eq, haddr, le_two]
  simp

/-- The frame of a 16-bit write access (spec R140). -/
theorem accessFrame_gpioWrite (a : Byte) (v : Half) :
    accessFrame (.gpioWrite a v) =
      [0x09#8, 0x00#8, 0xF5#8, a >>> 1, 0x00#8, 0x00#8, 0x00#8, v.setWidth 8, (v >>> 8).setWidth 8, 0x00#8, 0x00#8] := by
  rw [accessFrame, le_two_toNat, frameBytes_gpio]

/-- The frame of a 16-bit read access (spec R141). -/
theorem accessFrame_gpioRead (a : Byte) (act : ReadAction) :
    accessFrame (.gpioRead a act) =
      [0x09#8, 0x00#8, 0xF6#8, a >>> 1, 0x00#8, 0x00#8, 0x00#8, 0x02#8, 0x00#8, 0x00#8, 0x00#8] :=
  frameBytes_gpio opReadRom a 0x02#8 0x00#8

/-- The frame of a raw read access whose length fits one byte (spec R142). -/
theorem accessFrame_gpioReadN (a : Byte) {len : Half} (hlen : len.toNat < 256) :
    accessFrame (.gpioReadN a len) =
      [0x09#8, 0x00#8, 0xF6#8, a >>> 1, 0x00#8, 0x00#8, 0x00#8, len.setWidth 8, 0x00#8, 0x00#8, 0x00#8] := by
  have hhigh : (len >>> 8).setWidth 8 = 0x00#8 := by bv_omega
  rw [accessFrame, le_two_toNat, hhigh, frameBytes_gpio]

/-- Even addresses are different words exactly when they differ (spec R53, R57). -/
theorem gpioWordAddr_inj {a g : Byte} (ha : a.toNat % 2 = 0) (hg : g.toNat % 2 = 0) :
    gpioWordAddr a = gpioWordAddr g ↔ a = g := by
  rw [← BitVec.toNat_inj, gpioWordAddr, gpioWordAddr, BitVec.toNat_ushiftRight, BitVec.toNat_ushiftRight,
    Nat.shiftRight_eq_div_pow, Nat.shiftRight_eq_div_pow]
  omega

/-- What a 16-bit write exchange leaves in the shadow of the register it writes: the value, or unknown (spec R36). -/
def writtenShadow (v : Half) : LinkOutcome → Option Half
  | .ok _ => some v
  | .fail _ => none

/-- A 16-bit write access sets the shadow of the register it names and no other (spec R36, R140). -/
theorem shadowWord_gpioWrite {a g : Byte} (ha : a.toNat % 2 = 0) (hg : g.toNat % 2 = 0) (v : Half) (out : LinkOutcome)
    (old : Option Half) :
    shadowWord (gpioWordAddr g) (gpioWordAddr a) (le 2 v.toNat) out.isOk old =
      if a = g then writtenShadow v out else old := by
  simp only [shadowWord, gpioWordAddr_inj ha hg, le_length, and_true, fromLe_le_two_toNat, BitVec.ofNat_toNat,
    BitVec.setWidth_eq]
  cases out <;> rfl

/-- The shadow after a 16-bit write access of an even address (spec R36, R140). -/
theorem afterAccess_gpioWrite {a : Byte} (ha : a.toNat % 2 = 0) (v : Half) (s : State) :
    afterAccess (.gpioWrite a v) s =
      { afterExchange (accessFrame (.gpioWrite a v)) 1 s with
        shadow :=
          { data := if a = 0xC4#8 then writtenShadow v (exchangeOutcome 1 s) else s.shadow.data
            ctrl := if a = 0xC6#8 then writtenShadow v (exchangeOutcome 1 s) else s.shadow.ctrl
            re := if a = 0xC8#8 then writtenShadow v (exchangeOutcome 1 s) else s.shadow.re } } := by
  simp only [afterAccess, accessEffect, shadowRomWrite, accessCount, afterExchange_shadow]
  rw [shadowWord_gpioWrite ha rfl, shadowWord_gpioWrite ha rfl, shadowWord_gpioWrite ha rfl]

/-- A failed read access leaves only what the exchange left (spec R141, R142). -/
theorem afterAccess_of_read_fail {acc : Access} {s : State} {e : LinkFail} (hread : isWriteAccess acc = false)
    (hout : exchangeOutcome (accessCount acc) s = .fail e) :
    afterAccess acc s = afterExchange (accessFrame acc) (accessCount acc) s := by
  rw [afterAccess, hout]
  cases acc with
  | gpioWrite => cases hread
  | gpioRead | gpioReadN => rfl

/-- The value of a 16-bit read is its two payload bytes, little-endian (spec R141, R146). -/
theorem respValue_eq_append (h₀ h₁ d₀ d₁ : Byte) : respValue [h₀, h₁, d₀, d₁] = d₁ ++ d₀ := by
  have hbytes : respValue [h₀, h₁, d₀, d₁] = d₀.setWidth 16 ||| d₁.setWidth 16 <<< 8 := rfl
  rw [hbytes, BitVec.append_def, BitVec.shiftLeftZeroExtend_eq, BitVec.setWidth'_eq, BitVec.or_comm]

/-- RBUF after a raw read: the payload in received order, then what it held (spec R148). -/
theorem rbufAfter_getElem (len : Nat) (h₀ h₁ : Byte) (data : List Byte) (rbuf : Vector Byte 16) (k : Fin 16) :
    (rbufAfter len (h₀ :: h₁ :: data) rbuf)[k] = if k.val < len then data.getD k.val 0x00#8 else rbuf[k] := by
  have hbyte : byteAt (h₀ :: h₁ :: data) (2 + k.val) = data.getD k.val 0x00#8 := by
    rw [byteAt, Nat.add_comm]
    rfl
  simp [rbufAfter, hbyte]

/-- `readLenOk` is the range of a GPIO_READN length (spec R93, R147). -/
theorem readLenOk_of_range {len : Half} (hpos : 1 ≤ len.toNat) (hle : len.toNat ≤ 16) : readLenOk len = true :=
  decide_eq_true ⟨hpos, hle⟩

/-- A well-formed request of one access and no Close, BUSY at that access, ends there: completed, or with the exchange's error
raised (spec R25, R143, R268). -/
theorem exec_single_access {i : Instr} {s : State} {p : Plan} {acc : Access} (hbusy : s.phase = .busy) (hidx : s.seqIdx = 0#9)
    (hplan : planOf i s = some p) (hok : p.ok = true) (hseq : p.seq = [acc]) (hclose : p.close = none) :
    (∀ rs, exchangeOutcome (accessCount acc) s = .ok rs →
      exec i s = .next { afterAccess acc s with phase := .idle, done := true, seqIdx := 1#9 }) ∧
    (∀ e, exchangeOutcome (accessCount acc) s = .fail e →
      exec i s = .next { afterAccess acc s with
        phase := .idle, done := true, err := if s.err = 0#4 then failNumber e else s.err }) := by
  have hexec : exec i s = .next (engineStep p acc s) := exec_busy hbusy hplan hok (by simp [hseq, hidx])
  constructor
  · intro rs hout
    rw [hexec, engineStep_ok_eq hout, hidx, hseq]
    rfl
  · intro e hout
    rw [hexec, engineStep_fail_of_no_close hclose hout]

end Sys2Proof.Machine
end

section
/-! The obligations of spec section 41: the GPIO proxy and the engine's step. -/

namespace Sys2Proof.Proofs

open Sys2Proof.Machine

/-- Settles O27: a request of one write access; what it leaves in the shadow follows the exchange. -/
theorem gpioWriteMakesOneWrite : Obligations.GpioWriteMakesOneWrite := by
  intro a v s hbusy hidx heven f shadow
  obtain ⟨hdone, herror⟩ := exec_single_access (i := .gpioWrite16 a v) hbusy hidx rfl (evenAddr_iff.mpr heven) rfl rfl
  rw [afterAccess_gpioWrite heven, accessFrame_gpioWrite] at hdone herror
  constructor
  · intro rs hout
    rw [hdone rs hout, hout]
    rfl
  · intro e hout
    rw [herror e hout, hout]
    rfl

/-- Settles O28: a request of one 16-bit read access. -/
theorem gpioReadSetsResult : Obligations.GpioReadSetsResult := by
  intro a s hbusy hidx heven f
  obtain ⟨hdone, herror⟩ := exec_single_access (i := .gpioRead16 a) hbusy hidx rfl (evenAddr_iff.mpr heven) rfl rfl
  constructor
  · intro h₀ h₁ d₀ d₁ hout
    have hafter : afterAccess (.gpioRead a .setResult) s = { afterExchange f 4 s with result := d₁ ++ d₀ } := by
      rw [afterAccess, accessFrame_gpioRead, accessCount, hout, ← respValue_eq_append h₀ h₁]
      rfl
    rw [hdone _ hout, hafter]
  · intro e hout
    rw [herror e hout, afterAccess_of_read_fail (acc := .gpioRead a .setResult) rfl hout, accessFrame_gpioRead]
    rfl

/-- Settles O29: a request of one raw read access. -/
theorem gpioReadNFillsRbuf : Obligations.GpioReadNFillsRbuf := by
  intro a len s hbusy hidx heven hpos hle f
  have hok : (planGpioReadN a len).ok = true := by
    rw [planGpioReadN, evenAddr_iff.mpr heven, readLenOk_of_range hpos hle]
    rfl
  have hframe : accessFrame (.gpioReadN a len) = f := accessFrame_gpioReadN a (by omega)
  obtain ⟨hdone, herror⟩ := exec_single_access (i := .gpioReadN a len) hbusy hidx rfl hok rfl rfl
  constructor
  · intro h₀ h₁ data hout
    have hafter : afterAccess (.gpioReadN a len) s =
        { afterExchange f (len.toNat + 2) s with rbuf := rbufAfter len.toNat (h₀ :: h₁ :: data) s.rbuf } := by
      rw [afterAccess, hframe, accessCount, hout]
      rfl
    exact ⟨_, rbufAfter_getElem len.toNat h₀ h₁ data s.rbuf, by rw [hdone _ hout, hafter]⟩
  · intro e hout
    rw [herror e hout, afterAccess_of_read_fail (acc := .gpioReadN a len) rfl hout, hframe]
    rfl

/-- Settles O32: the step of a running request is one engine step, whose index rule is `advance`. -/
theorem busyStepMakesExactlyOneExchange : Obligations.BusyStepMakesExactlyOneExchange := by
  intro i s p acc hbusy hplan hok hacc
  obtain ⟨-, hlen, -, -⟩ := planOf_bounds hplan
  have hidx : s.seqIdx.toNat < p.seq.length := (List.getElem?_eq_some_iff.mp hacc).1
  refine ⟨engineStep p acc s, exec_busy hbusy hplan hok hacc, engineStep_history p acc s, engineStep_answers p acc s,
    engineStep_rx p acc s, engineStep_req p acc s, engineStep_port p acc s, engineStep_params p acc s,
    engineStep_codecRet p acc s, engineStep_resetReq p acc s, ?_⟩
  intro rs hout
  rw [engineStep_ok_eq hout]
  exact ⟨seqIdx_succ hidx hlen, afterAccess_err acc s, fun hend => ⟨if_pos hend, if_pos hend⟩,
    fun hon => ⟨(if_neg hon).trans hbusy, if_neg hon⟩⟩

/-- Settles O53: while BUSY the invariant gives the running request an access; at IDLE every event answers a next state. -/
theorem noStopUnderTheInvariant : Obligations.NoStopUnderTheInvariant := by
  rintro s ⟨-, -, hrun⟩
  cases hfetch : fetch s with
  | none => exact ⟨idleEvent s, by simp only [step, hfetch]⟩
  | some fetched =>
    obtain ⟨c, s'⟩ := fetched
    rcases fetch_cases hfetch with ⟨hreset, ⟨hbusy, -, -⟩ | ⟨hidle, rest, -, rfl⟩⟩
    · obtain ⟨-, -, i, p, hdec, hplan, hok, hlt⟩ := hrun hbusy
      exact ⟨_, step_busy hbusy hreset hdec hplan hok (List.getElem?_eq_getElem hlt)⟩
    · cases hdec : decode c with
      | ok i =>
        rw [step_of_fetch hfetch hdec]
        exact exec_next_of_idle (s := { s with port := rest }) hidle i
      | error why =>
        simp only [step, hfetch, hdec]
        exact turnAway_next_of_idle (s := { s with port := rest }) hidle c

/-- Settles O26: what `fetch` gives while BUSY and at IDLE is executed once it decodes. -/
theorem stepRunsTheDecodedInstruction : Obligations.StepRunsTheDecodedInstruction := fun _ _ hreset =>
  ⟨fun hbusy hdec => step_of_fetch (fetch_busy hbusy hreset) hdec,
    fun _ _ hidle hport hdec => step_of_fetch (fetch_present hidle hreset hport) hdec⟩

end Sys2Proof.Proofs
end

section
/-! The bit groups of the serial line, access by access (spec R160-R164), and where chip-select is released (spec R167). -/

namespace Sys2Proof.Machine

/-- Blocks of one length, laid one after another: index n * i + k is place k of block i. -/
theorem getElem?_flatMap_blocks {α β : Type} {f : α → List β} {n : Nat} (hlen : ∀ a, (f a).length = n) (l : List α)
    (i : Nat) {k : Nat} (hk : k < n) : (l.flatMap f)[n * i + k]? = l[i]?.bind fun a => (f a)[k]? := by
  induction l generalizing i with
  | nil => simp
  | cons a l ih =>
    rw [List.flatMap_cons]
    cases i with
    | zero => simp [List.getElem?_append_left (show k < (f a).length by rw [hlen]; exact hk)]
    | succ i =>
      have hindex : n * (i + 1) + k = (f a).length + (n * i + k) := by rw [hlen, Nat.mul_succ]; omega
      rw [hindex, List.getElem?_append_right (Nat.le_add_right _ _), Nat.add_sub_cancel_left, ih]
      simp

/-- The lines of a Data value as a number: SCK is bit 0, SIO bit 1, CS bit 2 (spec R100). -/
theorem dataWord_held (sio sck : Bool) : dataWord true sio sck = BitVec.ofNat 16 (4 + 2 * sio.toNat + sck.toNat) := by
  cases sio <;> cases sck <;> rfl

/-- The Data value of write k in a bit group (spec R160). -/
theorem dataWord_group (b : Bool) (k : Nat) :
    dataWord true b (decide (k = 3)) = BitVec.ofNat 16 (4 + 2 * b.toNat + if k = 3 then 1 else 0) := by
  rw [dataWord_held]
  split_ifs with hk <;> simp [hk]

/-- Bit 2 of a Data value is the chip-select line (spec R100). -/
theorem dataWord_chipSelect (cs sio sck : Bool) : (dataWord cs sio sck).getLsbD 2 = cs := by
  cases cs <;> cases sio <;> cases sck <;> rfl

/-- Bit 1 of a Data value is the serial line (spec R100). -/
theorem dataWord_sio (cs sio sck : Bool) : (dataWord cs sio sck).getLsbD 1 = sio := by
  cases cs <;> cases sio <;> cases sck <;> rfl

/-- A bit group writes the bit four times; the clock is high in the fourth write only (spec R160). -/
theorem cmdBit_getElem? (b : Bool) {k : Nat} (hk : k < 4) :
    (cmdBit b)[k]? = some (.gpioWrite 0xC4#8 (dataWord true b (decide (k = 3)))) := by
  interval_cases k <;> rfl

/-- A read bit is five clock-low writes, a clock-high write and the sample (spec R164). -/
theorem readBit_getElem? (dst : SampleDst) (i : Fin 8) {k : Nat} (hk : k < 7) :
    (readBit dst i)[k]? =
      some (if k < 6 then .gpioWrite 0xC4#8 (dataWord true false (decide (k = 5))) else .gpioRead 0xC4#8 (.sample dst i)) := by
  interval_cases k <;> rfl

/-- Eight bit groups: group i sends `bit i` (spec R160). -/
def bitGroups (bit : Nat → Bool) : List Access := (List.range 8).flatMap fun i => cmdBit (bit i)

/-- A command byte goes most significant bit first (spec R161). -/
theorem sendCmdSeq_eq_bitGroups (x : Byte) : sendCmdSeq x = bitGroups fun i => x.getLsbD (7 - i) := rfl

/-- A data byte goes least significant bit first (spec R162). -/
theorem writeByteSeq_eq_bitGroups (x : Byte) : writeByteSeq x = bitGroups fun i => x.getLsbD i := rfl

@[simp] theorem bitGroups_length (bit : Nat → Bool) : (bitGroups bit).length = 32 := rfl

theorem bitGroups_getElem? (bit : Nat → Bool) {i k : Nat} (hi : i < 8) (hk : k < 4) :
    (bitGroups bit)[4 * i + k]? = some (.gpioWrite 0xC4#8 (dataWord true (bit i) (decide (k = 3)))) := by
  rw [bitGroups, getElem?_flatMap_blocks (fun _ => cmdBit_length _) _ _ hk, List.getElem?_range hi]
  exact cmdBit_getElem? _ hk

/-- Bit groups are the same accesses exactly when they send the same bits. -/
theorem bitGroups_inj {bit bit' : Nat → Bool} : bitGroups bit = bitGroups bit' ↔ ∀ i, i < 8 → bit i = bit' i := by
  constructor
  · intro h i hi
    have hfirst := congrArg (·[4 * i + 0]?) h
    rw [bitGroups_getElem? bit hi (by decide), bitGroups_getElem? bit' hi (by decide)] at hfirst
    injection hfirst with haccess
    injection haccess with _ hvalue
    rw [← dataWord_sio true (bit i), hvalue, dataWord_sio]
  · intro h
    exact List.flatMap_congr fun i hi => by rw [h i (List.mem_range.mp hi)]

theorem readByteSeq_getElem? (dst : SampleDst) {i k : Nat} (hi : i < 8) (hk : k < 7) :
    (readByteSeq dst)[7 * i + k]? =
      some (if k < 6 then .gpioWrite 0xC4#8 (dataWord true false (decide (k = 5)))
        else .gpioRead 0xC4#8 (.sample dst ⟨i, hi⟩)) := by
  have hbits : readByteSeq dst = (List.finRange 8).flatMap (readBit dst) := rfl
  rw [hbits, getElem?_flatMap_blocks (readBit_length dst) _ _ hk, List.getElem?_eq_getElem (by simpa using hi)]
  simpa using readBit_getElem? dst ⟨i, hi⟩ hk

/-- Every access of a read byte is a write or the sample that ends its bit (spec R164). -/
theorem readByteSeq_cases {dst : SampleDst} {k : Nat} {acc : Access} (h : (readByteSeq dst)[k]? = some acc) :
    (k % 7 ≠ 6 ∧ ∃ sck, acc = .gpioWrite 0xC4#8 (dataWord true false sck)) ∨
      ∃ i : Fin 8, k = 7 * i.val + 6 ∧ acc = .gpioRead 0xC4#8 (.sample dst i) := by
  have hk : k < 56 := by simpa using (List.getElem?_eq_some_iff.mp h).1
  have haccess := readByteSeq_getElem? dst (show k / 7 < 8 by omega) (Nat.mod_lt k (by decide : 0 < 7))
  rw [Nat.div_add_mod, h] at haccess
  obtain rfl := Option.some.inj haccess
  split_ifs with hlt
  · exact .inl ⟨by omega, _, rfl⟩
  · exact .inr ⟨_, show k = 7 * (k / 7) + 6 by omega, rfl⟩

/-- If the access writes the Data register, it holds chip-select (spec R167). -/
def HoldsChipSelect (acc : Access) : Prop := ∀ v, acc = .gpioWrite 0xC4#8 v → v.getLsbD 2 = true

/-- A Data write of a bit group holds chip-select (spec R160, R164). -/
theorem holdsChipSelect_dataWord (sio sck : Bool) : HoldsChipSelect (.gpioWrite 0xC4#8 (dataWord true sio sck)) := by
  rintro v ⟨⟩
  exact dataWord_chipSelect true sio sck

theorem holdsChipSelect_of_mem_bitGroups {bit : Nat → Bool} {acc : Access} (h : acc ∈ bitGroups bit) :
    HoldsChipSelect acc := by
  obtain ⟨i, -, hi⟩ := List.mem_flatMap.mp h
  rcases mem_cmdBit hi with rfl | rfl <;> exact holdsChipSelect_dataWord _ _

theorem holdsChipSelect_of_mem_sendCmdSeq {x : Byte} {acc : Access} (h : acc ∈ sendCmdSeq x) : HoldsChipSelect acc := by
  rw [sendCmdSeq_eq_bitGroups] at h
  exact holdsChipSelect_of_mem_bitGroups h

theorem holdsChipSelect_of_mem_writeByteSeq {x : Byte} {acc : Access} (h : acc ∈ writeByteSeq x) :
    HoldsChipSelect acc := by
  rw [writeByteSeq_eq_bitGroups] at h
  exact holdsChipSelect_of_mem_bitGroups h

theorem holdsChipSelect_of_mem_readByteSeq {dst : SampleDst} {acc : Access} (h : acc ∈ readByteSeq dst) :
    HoldsChipSelect acc := by
  obtain ⟨k, hk⟩ := List.mem_iff_getElem?.mp h
  rcases readByteSeq_cases hk with ⟨-, sck, rfl⟩ | ⟨i, -, rfl⟩
  · exact holdsChipSelect_dataWord _ _
  · exact nofun

/-- The Data phase holds chip-select: its one other write is to Control (spec R167, R184, R185). -/
theorem holdsChipSelect_of_mem_dataSeq {c : Byte} {n : Nat} {buf : Vector Byte 7} {acc : Access}
    (h : acc ∈ dataSeq c n buf) : HoldsChipSelect acc := by
  unfold dataSeq at h
  split_ifs at h
  · cases h
  · rcases List.mem_cons.mp h with rfl | h
    · rintro v ⟨⟩
    · obtain ⟨j, -, hj⟩ := List.mem_flatMap.mp h
      exact holdsChipSelect_of_mem_readByteSeq hj
  · obtain ⟨j, -, hj⟩ := List.mem_flatMap.mp h
    exact holdsChipSelect_of_mem_writeByteSeq hj

/-- Open releases chip-select in its first Data write only (spec R182). -/
theorem openSeq_released {k : Nat} {v : Half} (h : openSeq[k]? = some (.gpioWrite 0xC4#8 v)) (hv : v.getLsbD 2 = false) :
    k = 1 := by
  have hk : k < 4 := (List.getElem?_eq_some_iff.mp h).1
  interval_cases k <;> cases h
  · rfl
  · cases hv

/-- Close releases chip-select in the first write of each of its two pulses only (spec R186). -/
theorem closeSeq_released {k : Nat} {v : Half} (h : closeSeq[k]? = some (.gpioWrite 0xC4#8 v)) (hv : v.getLsbD 2 = false) :
    k = 0 ∨ k = 2 := by
  have hk : k < 5 := (List.getElem?_eq_some_iff.mp h).1
  interval_cases k <;> cases h
  · exact .inl rfl
  · cases hv
  · exact .inr rfl
  · cases hv

/-- A Data write of a transaction with chip-select released stands in Open or in Close (spec R167). -/
theorem txnSeq_released {c : Byte} {n : Nat} {buf : Vector Byte 7} {k : Nat} {v : Half}
    (h : (txnSeq c n buf)[k]? = some (.gpioWrite 0xC4#8 v)) (hv : v.getLsbD 2 = false) :
    openSeq[k]? = some (.gpioWrite 0xC4#8 v) ∨
      (txnBody c n buf).length ≤ k ∧ closeSeq[k - (txnBody c n buf).length]? = some (.gpioWrite 0xC4#8 v) := by
  have hheld : ∀ acc ∈ sendCmdSeq c ++ dataSeq c n buf, HoldsChipSelect acc := fun acc hacc =>
    (List.mem_append.mp hacc).elim holdsChipSelect_of_mem_sendCmdSeq holdsChipSelect_of_mem_dataSeq
  rw [txnSeq, List.getElem?_append] at h
  split_ifs at h with hbody
  · rw [txnBody, List.append_assoc, List.getElem?_append] at h
    split_ifs at h with hopen
    · exact .inl h
    · exact nomatch hv.symm.trans (hheld _ (List.mem_of_getElem? h) v rfl)
  · exact .inr ⟨Nat.le_of_not_lt hbody, h⟩

end Sys2Proof.Machine
end

section
/-! One engine step of the bit-bang requests (spec R143, R268): a Data write, or a sample into RESULT. -/

namespace Sys2Proof.Machine

/-- The frame of a Data write of a byte value (spec R33, R53, R140). -/
theorem accessFrame_dataWrite (v : Byte) :
    accessFrame (.gpioWrite 0xC4#8 (v.setWidth 16)) =
      [0x09#8, 0x00#8, 0xF5#8, 0x62#8, 0x00#8, 0x00#8, 0x00#8, v, 0x00#8, 0x00#8, 0x00#8] := by
  have hlow : (v.setWidth 16).setWidth 8 = v := by bv_omega
  have hhigh : (v.setWidth 16 >>> 8).setWidth 8 = 0x00#8 := by bv_omega
  rw [accessFrame_gpioWrite, hlow, hhigh]
  rfl

/-- A request with no Close, BUSY at an access: the index advances, to the end at SEQ_LEN, or the error ends the request (spec
R24, R25, R143, R268). -/
theorem exec_access_of_no_close {i : Instr} {s : State} {p : Plan} {acc : Access} (hbusy : s.phase = .busy)
    (hplan : planOf i s = some p) (hok : p.ok = true) (hclose : p.close = none) (hacc : p.seq[s.seqIdx.toNat]? = some acc) :
    (∀ rs, exchangeOutcome (accessCount acc) s = .ok rs →
      exec i s = .next { afterAccess acc s with
        seqIdx := s.seqIdx + 1#9
        phase := if s.seqIdx.toNat + 1 = p.seq.length then .idle else .busy
        done := if s.seqIdx.toNat + 1 = p.seq.length then true else s.done }) ∧
    (∀ e, exchangeOutcome (accessCount acc) s = .fail e →
      exec i s = .next { afterAccess acc s with
        phase := .idle, done := true, err := if s.err = 0#4 then failNumber e else s.err }) := by
  rw [exec_busy hbusy hplan hok hacc]
  exact ⟨fun rs hout => by rw [engineStep_ok_eq hout, hbusy], fun e hout => by rw [engineStep_fail_of_no_close hclose hout]⟩

/-- Such a request at a Data write: the write's frame, and the shadow that follows its exchange (spec R36, R140). -/
theorem exec_dataWrite {i : Instr} {s : State} {p : Plan} {v : Byte} (hbusy : s.phase = .busy) (hplan : planOf i s = some p)
    (hok : p.ok = true) (hclose : p.close = none) (hacc : p.seq[s.seqIdx.toNat]? = some (.gpioWrite 0xC4#8 (v.setWidth 16))) :
    let f : List Byte := [0x09#8, 0x00#8, 0xF5#8, 0x62#8, 0x00#8, 0x00#8, 0x00#8, v, 0x00#8, 0x00#8, 0x00#8]
    (∀ rs, exchangeOutcome 1 s = .ok rs →
      exec i s = .next { afterExchange f 1 s with
        seqIdx := s.seqIdx + 1#9, shadow := { s.shadow with data := some (v.setWidth 16) }
        phase := if s.seqIdx.toNat + 1 = p.seq.length then .idle else .busy
        done := if s.seqIdx.toNat + 1 = p.seq.length then true else s.done }) ∧
    (∀ e, exchangeOutcome 1 s = .fail e →
      exec i s = .next { afterExchange f 1 s with
        shadow := { s.shadow with data := none }, phase := .idle, done := true
        err := if s.err = 0#4 then failNumber e else s.err }) := by
  intro f
  obtain ⟨hdone, herror⟩ := exec_access_of_no_close hbusy hplan hok hclose hacc
  rw [afterAccess_gpioWrite rfl, accessFrame_dataWrite] at hdone herror
  constructor
  · intro rs hout
    rw [hdone rs hout, hout]
    rfl
  · intro e hout
    rw [herror e hout, hout]
    rfl

/-- `dst <- (dst & ~(1 << i)) | (s << i)` writes bit i and no other (spec R165). -/
theorem putBit_getLsbD {n : Nat} (dst : BitVec n) {i : Nat} (hi : i < n) (b : Bool) (k : Nat) :
    (putBit dst i b).getLsbD k = if k = i then b else dst.getLsbD k := by
  by_cases hk : k < n
  · rcases Nat.lt_trichotomy k i with hlt | rfl | hgt
    · simp [putBit, hk, hlt, hlt.ne]
    · simp [putBit, hk]
    · have hpos : k - i ≠ 0 := by omega
      simp [putBit, hk, hgt.ne', hpos, Nat.not_lt_of_gt hgt]
  · have hki : k ≠ i := by omega
    simp [hki, BitVec.getLsbD_of_ge _ k (Nat.le_of_not_lt hk)]

/-- The sampled bit is bit 1 of the response's third byte, the SIO line (spec R165). -/
theorem sampledBit_eq (rs : List Byte) : sampledBit rs = (byteAt rs 2).getLsbD 1 := by
  simp [sampledBit, respValue]

/-- A completed sample into RESULT writes its bit there (spec R165). -/
theorem afterAccess_sampleResult {s : State} {rs : List Byte} (a : Byte) (i : Fin 8) (hout : exchangeOutcome 4 s = .ok rs) :
    afterAccess (.gpioRead a (.sample .result i)) s =
      { afterExchange (accessFrame (.gpioRead a (.sample .result i))) 4 s with
        result := putBit s.result i.val (sampledBit rs) } := by
  rw [afterAccess, accessCount, hout]
  rfl

/-- Such a request at a sample into RESULT: the read's frame, and the bit that its response puts into RESULT (spec R141,
R165). -/
theorem exec_sampleResult {i : Instr} {s : State} {p : Plan} {b : Fin 8} (hbusy : s.phase = .busy)
    (hplan : planOf i s = some p) (hok : p.ok = true) (hclose : p.close = none)
    (hacc : p.seq[s.seqIdx.toNat]? = some (.gpioRead 0xC4#8 (.sample .result b))) :
    let g : List Byte := [0x09#8, 0x00#8, 0xF6#8, 0x62#8, 0x00#8, 0x00#8, 0x00#8, 0x02#8, 0x00#8, 0x00#8, 0x00#8]
    (∀ rs, exchangeOutcome 4 s = .ok rs →
      exec i s = .next { afterExchange g 4 s with
        seqIdx := s.seqIdx + 1#9, result := putBit s.result b.val (sampledBit rs)
        phase := if s.seqIdx.toNat + 1 = p.seq.length then .idle else .busy
        done := if s.seqIdx.toNat + 1 = p.seq.length then true else s.done }) ∧
    (∀ e, exchangeOutcome 4 s = .fail e →
      exec i s = .next { afterExchange g 4 s with
        phase := .idle, done := true, err := if s.err = 0#4 then failNumber e else s.err }) := by
  intro g
  obtain ⟨hdone, herror⟩ := exec_access_of_no_close hbusy hplan hok hclose hacc
  constructor
  · intro rs hout
    rw [hdone rs hout, afterAccess_sampleResult _ _ hout, accessFrame_gpioRead]
    rfl
  · intro e hout
    rw [herror e hout, afterAccess_of_read_fail (acc := .gpioRead 0xC4#8 (.sample .result b)) rfl hout, accessFrame_gpioRead]
    rfl

end Sys2Proof.Machine
end

section
/-! What an undisturbed run carries along (spec R63, R143), and the byte that BB_READ_BYTE assembles (spec R164-R166). -/

namespace Sys2Proof.Machine

section
variable (p : Plan) (s : State)

@[simp] theorem advance_result : (advance p s).result = s.result := by
  rcases advance_cases p s with ⟨-, h⟩ | ⟨-, h⟩ <;> simp [h]
@[simp] theorem advance_buf : (advance p s).buf = s.buf := by
  rcases advance_cases p s with ⟨-, h⟩ | ⟨-, h⟩ <;> simp [h]
@[simp] theorem advance_rbuf : (advance p s).rbuf = s.rbuf := by
  rcases advance_cases p s with ⟨-, h⟩ | ⟨-, h⟩ <;> simp [h]
@[simp] theorem advance_seqIdx : (advance p s).seqIdx = s.seqIdx + 1#9 := by
  rcases advance_cases p s with ⟨-, h⟩ | ⟨-, h⟩ <;> simp [h]
@[simp] theorem advance_answers : (advance p s).answers = s.answers := by
  rcases advance_cases p s with ⟨-, h⟩ | ⟨-, h⟩ <;> simp [h]
end

/-- With an access left after the one answered by exactly its response, the request goes on running (spec R24, R25). -/
theorem RunsPlan.goes_on {i : Instr} {p : Plan} {s : State} {acc : Access} {a : LinkAnswer} {as : List LinkAnswer}
    (h : RunsPlan i p s) (hacc : p.seq[s.seqIdx.toNat]? = some acc) (hanswers : s.answers = a :: as)
    (hexact : a.bytes.length = accessCount acc) (hon : s.seqIdx.toNat + 1 ≠ p.seq.length) :
    RunsPlan i p (advance p (afterAccess acc s)) := by
  rcases advance_cases p (afterAccess acc s) with ⟨hend, -⟩ | ⟨-, hadv⟩
  · exact absurd hend (by rwa [afterAccess_seqIdx])
  · rw [hadv]
    exact ⟨by simp [h.phase], by simp [h.reset], by simp [h.decodes],
      (planOf_congr i rfl rfl).trans (planOf_afterAccess h.plan (List.mem_of_getElem? hacc)), h.ok,
      afterAccess_rx_of_exact h.rx hanswers hexact⟩

/-- A link that keeps its duty has an answer of the right length for each access (spec R63). -/
theorem AnswersFit.getElem? {seq : List Access} {as : List LinkAnswer} (h : AnswersFit seq as) {k : Nat} {acc : Access}
    (hacc : seq[k]? = some acc) : ∃ a, as[k]? = some a ∧ a.bytes.length = accessCount acc := by
  obtain ⟨hk, rfl⟩ := List.getElem?_eq_some_iff.mp hacc
  exact ⟨as[k]'(h.length_eq ▸ hk), List.getElem?_eq_getElem _, h.get hk _⟩

/-- Induction along an undisturbed run: what holds at access k, and is carried over access k with its own answer, holds when
the n remaining accesses are made (spec R63, R143). -/
theorem RunsPlan.run_induction {i : Instr} {p : Plan} {as later : List LinkAnswer} (motive : Nat → State → Prop)
    (hlen : p.seq.length ≤ 434) (hfit : AnswersFit p.seq as)
    (hcarry : ∀ k acc a s, p.seq[k]? = some acc → as[k]? = some a → exchangeOutcome (accessCount acc) s = .ok a.bytes →
      motive k s → motive (k + 1) (advance p (afterAccess acc s)))
    (n : Nat) {s : State} (hruns : s.seqIdx.toNat < p.seq.length → RunsPlan i p s) (hn : s.seqIdx.toNat + n = p.seq.length)
    (hanswers : s.answers = as.drop s.seqIdx.toNat ++ later) (hstart : motive s.seqIdx.toNat s) :
    ∃ t, Host.Core.run Sys2Proof.core n s = .next t ∧ motive p.seq.length t := by
  induction n generalizing s with
  | zero => exact ⟨s, rfl, by rwa [← hn]⟩
  | succ n ih =>
    have hidx : s.seqIdx.toNat < p.seq.length := by omega
    have hruns := hruns hidx
    have hacc := List.getElem?_eq_getElem hidx
    obtain ⟨a, ha, hexact⟩ := hfit.getElem? hacc
    have hanswers : s.answers = a :: (as.drop (s.seqIdx.toNat + 1) ++ later) := by
      rw [hanswers, List.drop_eq_getElem?_toList_append, ha]
      rfl
    rw [run_succ (hruns.step_eq hacc hanswers hexact)]
    have hidxNext : (advance p (afterAccess p.seq[s.seqIdx.toNat] s)).seqIdx.toNat = s.seqIdx.toNat + 1 := by
      rw [advance_seqIdx, afterAccess_seqIdx, seqIdx_succ hidx hlen]
    refine ih (fun hlt => hruns.goes_on hacc hanswers hexact (by omega)) (by omega) ?_ ?_
    · rw [hidxNext, advance_answers, afterAccess_answers, hanswers, List.tail_cons]
    · rw [hidxNext]
      exact hcarry _ _ _ _ hacc ha (exchangeOutcome_of_exact hruns.rx hanswers hexact) hstart

/-- A well-formed request submitted at IDLE to a link that keeps its duty runs to its end, and what holds of the accepted
state and is carried over each access holds there (spec R63, R92, R143). -/
theorem run_of_submit_induction {s : State} {w : Word} {rest : List PortOp} {i : Instr} {p : Plan}
    {as later : List LinkAnswer} (motive : Nat → State → Prop) (hidle : s.phase = .idle) (hreset : s.resetReq = false)
    (hport : s.port = .present (.request w) :: rest) (hrx : s.rx = []) (hdec : decode (.request w) = .ok i)
    (hplan : planOf i s = some p) (hok : p.ok = true) (hanswers : s.answers = as ++ later) (hfit : AnswersFit p.seq as)
    (hstart : motive 0 (accept p { s with port := rest }))
    (hcarry : ∀ k acc a s, p.seq[k]? = some acc → as[k]? = some a → exchangeOutcome (accessCount acc) s = .ok a.bytes →
      motive k s → motive (k + 1) (advance p (afterAccess acc s))) :
    ∃ t, Host.Core.run Sys2Proof.core (1 + p.seq.length) s = .next t ∧
      RanToEnd p p.seq as later (accept p { s with port := rest }) t ∧ motive p.seq.length t := by
  obtain ⟨-, hlen, -, -⟩ := planOf_bounds hplan
  obtain ⟨t, hrun, hword, hend⟩ := run_of_submit hidle hreset hport hrx hdec hplan hok hanswers hfit
  have hport' : planOf i { s with port := rest } = some p := (planOf_congr i rfl rfl).trans hplan
  have hruns : RunsPlan i p (accept p { s with port := rest }) :=
    ⟨rfl, hreset, by rw [accept_req, hword, hdec], planOf_accept hport', hok, hrx⟩
  obtain ⟨t', hrun', hmotive⟩ := RunsPlan.run_induction motive hlen hfit hcarry p.seq.length (fun _ => hruns)
    (Nat.zero_add _) hanswers hstart
  have hsubmit := run_succ (step_submit hidle hreset hport hdec hplan) p.seq.length
  rw [submit, if_pos hok, hrun', Nat.add_comm, hrun] at hsubmit
  obtain rfl : t = t' := by injection hsubmit
  exact ⟨t, hrun, hend, hmotive⟩

/-- RESULT while BB_READ_BYTE stands at access k: bit j is the SIO bit of read j once that is made, and 0 before; no other
register that a read fills has changed (spec R165, R166). -/
structure ReadSoFar (as : List LinkAnswer) (buf : Vector Byte 7) (rbuf : Vector Byte Config.rbufBytes) (k : Nat)
    (s : State) : Prop where
  result : ∀ j, s.result.getLsbD j = (as.take k)[7 * j + 6]?.any answerBit
  buf : s.buf = buf
  rbuf : s.rbuf = rbuf

/-- Each access of BB_READ_BYTE carries the byte on: only the sample that ends bit i writes, and it writes bit i (spec R164,
R165). -/
theorem ReadSoFar.carry {as : List LinkAnswer} {buf : Vector Byte 7} {rbuf : Vector Byte Config.rbufBytes} {k : Nat}
    {acc : Access} {a : LinkAnswer} {s : State} (hacc : (readByteSeq .result)[k]? = some acc) (ha : as[k]? = some a)
    (hout : exchangeOutcome (accessCount acc) s = .ok a.bytes) (h : ReadSoFar as buf rbuf k s) :
    ReadSoFar as buf rbuf (k + 1) (advance planBbReadByte (afterAccess acc s)) := by
  have hother : ∀ j, k ≠ 7 * j + 6 → (as.take (k + 1))[7 * j + 6]? = (as.take k)[7 * j + 6]? := by
    intro j hj
    have hlt : 7 * j + 6 < k + 1 ↔ 7 * j + 6 < k := by omega
    simp only [List.getElem?_take, hlt]
  rcases readByteSeq_cases hacc with ⟨hk, sck, rfl⟩ | ⟨i, rfl, rfl⟩
  · refine ⟨fun j => ?_, (advance_buf _ _).trans h.buf, (advance_rbuf _ _).trans h.rbuf⟩
    rw [advance_result, hother j (by omega)]
    exact h.result j
  · rw [afterAccess_sampleResult 0xC4#8 i hout]
    refine ⟨fun j => ?_, by simpa using h.buf, by simpa using h.rbuf⟩
    rw [advance_result, putBit_getLsbD _ (by omega), sampledBit_eq]
    split_ifs with hj
    · subst hj
      simp [ha, answerBit]
    · rw [hother j (by omega)]
      exact h.result j

end Sys2Proof.Machine
end

section
/-! The obligations of spec section 42: the bit-bang engine. -/

namespace Sys2Proof.Proofs

open Sys2Proof.Machine

/-- Settles O14: both orders are eight bit groups, which differ in the bit that group i sends. -/
theorem serialByteOrder : Obligations.SerialByteOrder := by
  intro x
  refine ⟨sendCmdSeq_length x, writeByteSeq_length x, fun i k hi hk => ?_, ?_⟩
  · rw [← dataWord_group, ← dataWord_group, sendCmdSeq_eq_bitGroups, writeByteSeq_eq_bitGroups]
    exact ⟨bitGroups_getElem? _ hi hk, bitGroups_getElem? _ hi hk⟩
  · rw [sendCmdSeq_eq_bitGroups, writeByteSeq_eq_bitGroups, bitGroups_inj]
    exact forall₂_congr fun i _ => eq_comm

/-- Settles O15: every bit group holds chip-select, and what is left of a transaction is Open and Close. -/
theorem chipSelectIsHeld : Obligations.ChipSelectIsHeld := by
  constructor
  · intro x dst v hmem
    simp only [List.mem_append] at hmem
    rcases hmem with (hmem | hmem) | hmem
    · exact holdsChipSelect_of_mem_sendCmdSeq hmem v rfl
    · exact holdsChipSelect_of_mem_writeByteSeq hmem v rfl
    · exact holdsChipSelect_of_mem_readByteSeq hmem v rfl
  · intro c n buf k v hwrite hv
    rcases txnSeq_released hwrite hv with hopen | ⟨hle, hclose⟩
    · exact .inl (openSeq_released hopen hv)
    · rcases closeSeq_released hclose hv with hk | hk <;> omega

/-- Settles O30: both requests are eight bit groups with no Close, and access 4i + m is write m of group i. -/
theorem bitBangWriteSteps : Obligations.BitBangWriteSteps := by
  intro x s i m hbusy hi hm hidx q hq v f
  obtain ⟨p, bit, hplan, hok, hclose, hseq, hbit⟩ : ∃ p bit, planOf q.1 s = some p ∧ p.ok = true ∧ p.close = none ∧
      p.seq = bitGroups bit ∧ bit i = q.2 := by
    simp only [List.mem_cons, List.not_mem_nil, or_false] at hq
    rcases hq with rfl | rfl
    · exact ⟨_, _, rfl, rfl, rfl, sendCmdSeq_eq_bitGroups x, rfl⟩
    · exact ⟨_, _, rfl, rfl, rfl, writeByteSeq_eq_bitGroups x, rfl⟩
  have hindex : s.seqIdx.toNat = 4 * i + m := by rw [hidx, BitVec.toNat_ofNat]; omega
  have hnext : s.seqIdx + 1#9 = BitVec.ofNat 9 (4 * i + m + 1) := by rw [hidx, ← BitVec.ofNat_add]
  have hend : s.seqIdx.toNat + 1 = p.seq.length ↔ 4 * i + m = 31 := by rw [hindex, hseq, bitGroups_length]; omega
  have hacc : p.seq[s.seqIdx.toNat]? = some (.gpioWrite 0xC4#8 (v.setWidth 16)) := by
    have hsmall : 4 + 2 * q.2.toNat + (if m = 3 then 1 else 0) < 2 ^ 8 := by
      have := q.2.toNat_le
      split_ifs <;> omega
    rw [hindex, hseq, bitGroups_getElem? bit hi hm, hbit, dataWord_group,
      BitVec.setWidth_ofNat_of_le_of_lt (by decide) hsmall]
  obtain ⟨hdone, herror⟩ := exec_dataWrite hbusy hplan hok hclose hacc
  refine ⟨fun rs hout => ?_, herror⟩
  rw [hdone rs hout, hnext]
  simp only [hend]
  rfl

/-- Settles O31: access 7i + m is write m or the sample of read bit i, in a request with no Close. -/
theorem bitBangReadSteps : Obligations.BitBangReadSteps := by
  intro s i m hbusy hi hm hidx v f g
  have hindex : s.seqIdx.toNat = 7 * i + m := by rw [hidx, BitVec.toNat_ofNat]; omega
  have hnext : s.seqIdx + 1#9 = BitVec.ofNat 9 (7 * i + m + 1) := by rw [hidx, ← BitVec.ofNat_add]
  have hend : s.seqIdx.toNat + 1 = planBbReadByte.seq.length ↔ m = 6 ∧ i = 7 := by
    rw [hindex, planBbReadByte, readByteSeq_length]; omega
  have hacc := readByteSeq_getElem? .result hi hm
  rw [← hindex] at hacc
  have hwrite (hlt : m < 6) : planBbReadByte.seq[s.seqIdx.toNat]? = some (.gpioWrite 0xC4#8 (v.setWidth 16)) := by
    have hvalue : dataWord true false (decide (m = 5)) = v.setWidth 16 := by
      simp only [v]
      interval_cases m <;> rfl
    rw [planBbReadByte, hacc, if_pos hlt, hvalue]
  have hsample (h6 : m = 6) : planBbReadByte.seq[s.seqIdx.toNat]? = some (.gpioRead 0xC4#8 (.sample .result ⟨i, hi⟩)) := by
    rw [planBbReadByte, hacc, if_neg (by omega)]
  refine ⟨fun hlt rs hout => ?_, fun hlt => (exec_dataWrite hbusy rfl rfl rfl (hwrite hlt)).2,
    fun h6 h₀ h₁ d₀ d₁ hout => ?_, fun h6 => (exec_sampleResult hbusy rfl rfl rfl (hsample h6)).2⟩
  · have hon : ¬(s.seqIdx.toNat + 1 = planBbReadByte.seq.length) := fun h => by omega
    rw [(exec_dataWrite hbusy rfl rfl rfl (hwrite hlt)).1 rs hout, if_neg hon, if_neg hon, hnext, ← hbusy]
    rfl
  · have hbit : sampledBit [h₀, h₁, d₀, d₁] = d₀.getLsbD 1 := sampledBit_eq _
    refine ⟨putBit s.result i (d₀.getLsbD 1), putBit_getLsbD s.result (by omega) _, ?_⟩
    rw [(exec_sampleResult hbusy rfl rfl rfl (hsample h6)).1 _ hout, hbit, hnext]
    simp only [hend, h6, true_and]
    rfl

/-- Settles O38: along the run RESULT holds the bits sampled so far, and after access 55 these are all eight. -/
theorem readByteRunAssemblesLsbFirst : Obligations.ReadByteRunAssemblesLsbFirst := by
  intro s rest as later hidle hreset hport hrx hanswers hfit
  have hdec : decode (.request 0x30000000#32) = .ok .bbReadByte := decode_eq_ok_iff.mpr ⟨rfl, rfl, rfl⟩
  have hstart : ReadSoFar as s.buf s.rbuf 0 (accept planBbReadByte { s with port := rest }) :=
    ⟨by simp, clearBuf_zero s.buf, rfl⟩
  obtain ⟨t, hrun, hend, hresult, hbuf, hrbuf⟩ := run_of_submit_induction (p := planBbReadByte) (ReadSoFar as s.buf s.rbuf)
    hidle hreset hport hrx hdec rfl rfl hanswers hfit hstart fun _ _ _ _ => ReadSoFar.carry
  have hlen : as.length = planBbReadByte.seq.length := hfit.length_eq.symm
  have hbits : ∀ j, t.result.getLsbD j = as[7 * j + 6]?.any answerBit := by
    intro j
    rw [hresult, List.take_of_length_le hlen.le]
  refine ⟨t, hrun, hend.phase, hend.done, hend.err, fun i _ a ha => ?_, fun i hi => ?_, hbuf, hrbuf⟩
  · rw [hbits, ha, Option.any_some]
  · rw [hbits, List.getElem?_eq_none (by rw [hlen, planBbReadByte, readByteSeq_length]; omega), Option.any_none]

/-- Settles O4: a code decodes to the instruction that encodes to it, and each of the ten is written by the encoder. -/
theorem sampleEncodingsDecode : Obligations.SampleEncodingsDecode := by
  refine ⟨?_, ?_, ?_, ?_, ?_, ?_, ?_, ?_, ?_, ?_⟩ <;> exact decode_eq_ok_iff.mpr ⟨rfl, rfl, rfl⟩

end Sys2Proof.Proofs
end

section
/-! The phases of a transaction as ranges of the index (spec R181-R186, R199), and the accesses of its Data phase. -/

namespace Sys2Proof.Machine

/-- The bytes of a data phase come in ascending order, from BUF[0] on (spec R184, R185). -/
theorem bufSlots_getElem?_eq_some {n k : Nat} {j : Fin 7} : (bufSlots n)[k]? = some j ↔ k = j.val ∧ j.val < n := by
  have hslots : bufSlots n = (List.finRange 7).take n := rfl
  rw [hslots, List.getElem?_take]
  split_ifs with hk
  · simp [List.getElem?_eq_some_iff, Fin.ext_iff]
    omega
  · exact ⟨nofun, fun ⟨heq, hlt⟩ => absurd (heq ▸ hlt) hk⟩

/-- The place of an access in blocks of one length is a block and a place in it. -/
theorem getElem?_flatMap_blocks_eq_some {α β : Type} {f : α → List β} {n k : Nat} {l : List α} {b : β} (hn : 0 < n)
    (hlen : ∀ a, (f a).length = n) (h : (l.flatMap f)[k]? = some b) :
    ∃ a, l[k / n]? = some a ∧ (f a)[k % n]? = some b := by
  rw [← Nat.div_add_mod k n, getElem?_flatMap_blocks hlen l _ (Nat.mod_lt k hn)] at h
  exact Option.bind_eq_some_iff.mp h

/-- A read command is not RTC_RESET, whose bit 0 is clear (spec R97). -/
theorem ne_reset_of_isReadCommand {c : Byte} (hc : isReadCommand c = true) : c ≠ 0x60#8 := by
  rintro rfl
  cases hc

/-- RTC_RESET has no data phase (spec R190). -/
theorem dataSeq_reset (n : Nat) (buf : Vector Byte 7) : dataSeq 0x60#8 n buf = [] := rfl

/-- A read command sets Control to input, and then reads byte after byte (spec R184). -/
theorem dataSeq_of_read {c : Byte} (hc : isReadCommand c = true) (n : Nat) (buf : Vector Byte 7) :
    dataSeq c n buf = .gpioWrite 0xC6#8 0x0005#16 :: (bufSlots n).flatMap fun j => readByteSeq (.buf j) := by
  rw [dataSeq, if_neg (ne_reset_of_isReadCommand hc), if_pos hc]

/-- Any other command sends byte after byte (spec R185). -/
theorem dataSeq_of_write {c : Byte} (hc : isReadCommand c = false) (hne : c ≠ 0x60#8) (n : Nat) (buf : Vector Byte 7) :
    dataSeq c n buf = (bufSlots n).flatMap fun j => writeByteSeq buf[j] := by
  rw [dataSeq, if_neg hne, if_neg (by simp [hc])]

/-- The accesses of the data phase (spec R199). -/
theorem dataSeq_length (c : Byte) {n : Nat} (hn : n ≤ 7) (buf : Vector Byte 7) :
    (dataSeq c n buf).length = if c = 0x60#8 then 0 else if isReadCommand c = true then 1 + 56 * n else 32 * n := by
  unfold dataSeq
  split_ifs <;> simp [List.length_flatMap, hn] <;> omega

/-- Open and Command are the accesses before index 36 (spec R199). -/
theorem open_command_length (c : Byte) : (openSeq ++ sendCmdSeq c).length = 36 := rfl

/-- CLOSE_IDX, counted from the data phase (spec R199). -/
theorem txnBody_length (c : Byte) (n : Nat) (buf : Vector Byte 7) :
    (txnBody c n buf).length = 36 + (dataSeq c n buf).length := by
  rw [txnBody, List.length_append, open_command_length]

/-- A transaction, phase by phase (spec R181). -/
theorem txnSeq_eq_phases (c : Byte) (n : Nat) (buf : Vector Byte 7) :
    txnSeq c n buf = openSeq ++ (sendCmdSeq c ++ (dataSeq c n buf ++ closeSeq)) := by
  simp only [txnSeq, txnBody, List.append_assoc]

/-- SEQ_LEN of a read command (spec R199). -/
theorem txnSeq_length_of_read {c : Byte} (hc : isReadCommand c = true) {n : Nat} (hn : n ≤ 7) (buf : Vector Byte 7) :
    (txnSeq c n buf).length = 42 + 56 * n := by
  rw [txnSeq_length, txnBody_length, dataSeq_length c hn, if_neg (ne_reset_of_isReadCommand hc), if_pos hc]
  omega

/-- The data phase begins at index 36 (spec R199). -/
theorem txnSeq_getElem?_of_dataSeq {c : Byte} {n k : Nat} {buf : Vector Byte 7} {acc : Access}
    (h : (dataSeq c n buf)[k]? = some acc) : (txnSeq c n buf)[36 + k]? = some acc := by
  have hk : k < (dataSeq c n buf).length := (List.getElem?_eq_some_iff.mp h).1
  have hbody : 36 + k < (txnBody c n buf).length := by rw [txnBody_length]; omega
  rw [txnSeq, List.getElem?_append_left hbody, txnBody, List.getElem?_append_right (Nat.le_add_right 36 k),
    open_command_length, Nat.add_sub_cancel_left, h]

/-- Access 7i + k of the byte that a read command reads into BUF[j] (spec R164, R184). -/
theorem txnSeq_getElem?_read {c : Byte} (hc : isReadCommand c = true) {n : Nat} {j : Fin 7} (hj : j.val < n)
    (buf : Vector Byte 7) {i k : Nat} (hi : i < 8) (hk : k < 7) :
    (txnSeq c n buf)[37 + 56 * j.val + 7 * i + k]? =
      some (if k < 6 then .gpioWrite 0xC4#8 (dataWord true false (decide (k = 5)))
        else .gpioRead 0xC4#8 (.sample (.buf j) ⟨i, hi⟩)) := by
  have hplace : 37 + 56 * j.val + 7 * i + k = 36 + (56 * j.val + (7 * i + k) + 1) := by omega
  rw [hplace]
  apply txnSeq_getElem?_of_dataSeq
  rw [dataSeq_of_read hc, List.getElem?_cons_succ,
    getElem?_flatMap_blocks (fun _ => readByteSeq_length _) _ _ (by omega), bufSlots_getElem?_eq_some.mpr ⟨rfl, hj⟩]
  exact readByteSeq_getElem? (.buf j) hi hk

/-- Access k of the byte that a write command sends from BUF[j] (spec R185). -/
theorem txnSeq_getElem?_write {c : Byte} (hc : isReadCommand c = false) (hne : c ≠ 0x60#8) {n : Nat} {j : Fin 7}
    (hj : j.val < n) (buf : Vector Byte 7) {k : Nat} (hk : k < 32) :
    (txnSeq c n buf)[36 + 32 * j.val + k]? = (writeByteSeq buf[j])[k]? := by
  have hblock : (dataSeq c n buf)[32 * j.val + k]? = (writeByteSeq buf[j])[k]? := by
    rw [dataSeq_of_write hc hne, getElem?_flatMap_blocks (fun _ => writeByteSeq_length _) _ _ hk,
      bufSlots_getElem?_eq_some.mpr ⟨rfl, hj⟩, Option.bind_some]
  have hwrite : (writeByteSeq buf[j])[k]? = some _ := List.getElem?_eq_getElem hk
  rw [Nat.add_assoc, hwrite]
  exact txnSeq_getElem?_of_dataSeq (hblock.trans hwrite)

/-- The access that samples bit i of BUF[j] (spec R164, R184). -/
theorem txnSeq_getElem?_sample {c : Byte} (hc : isReadCommand c = true) {n : Nat} {j : Fin 7} (hj : j.val < n)
    (buf : Vector Byte 7) {i : Nat} (hi : i < 8) :
    (txnSeq c n buf)[37 + 56 * j.val + 7 * i + 6]? = some (.gpioRead 0xC4#8 (.sample (.buf j) ⟨i, hi⟩)) :=
  txnSeq_getElem?_read hc hj buf hi (by decide)

/-- A 16-bit write access of an even address, as the three GPIO registers have (spec R57, R140). -/
def writesRegister : Access → Bool
  | .gpioWrite a _ => evenAddr a
  | .gpioRead _ _ => false
  | .gpioReadN _ _ => false

theorem writesRegister_iff {acc : Access} :
    writesRegister acc = true ↔ ∃ a v, a.toNat % 2 = 0 ∧ acc = .gpioWrite a v := by
  cases acc <;> simp [writesRegister, evenAddr_iff]

theorem writesRegister_of_mem_bitGroups {bit : Nat → Bool} {acc : Access} (h : acc ∈ bitGroups bit) :
    writesRegister acc = true := by
  obtain ⟨i, -, hi⟩ := List.mem_flatMap.mp h
  rcases mem_cmdBit hi with rfl | rfl <;> rfl

/-- Open and Command make register writes only (spec R182, R183). -/
theorem writesRegister_of_mem_open_command {c : Byte} {acc : Access} (h : acc ∈ openSeq ++ sendCmdSeq c) :
    writesRegister acc = true := by
  have hopen : ∀ acc ∈ openSeq, writesRegister acc = true := by decide
  rw [sendCmdSeq_eq_bitGroups] at h
  exact (List.mem_append.mp h).elim (hopen acc) writesRegister_of_mem_bitGroups

/-- Close makes register writes only (spec R186). -/
theorem writesRegister_of_mem_closeSeq : ∀ acc ∈ closeSeq, writesRegister acc = true := by decide

/-- Every access of a data phase is a register write, or a read command's sample of a bit of BUF at the bit's own place (spec
R184, R185). -/
theorem dataSeq_cases {c : Byte} {n k : Nat} {buf : Vector Byte 7} {acc : Access} (h : (dataSeq c n buf)[k]? = some acc) :
    writesRegister acc = true ∨ isReadCommand c = true ∧ ∃ (j : Fin 7) (i : Fin 8), j.val < n ∧
      k = 1 + 56 * j.val + 7 * i.val + 6 ∧ acc = .gpioRead 0xC4#8 (.sample (.buf j) i) := by
  cases hc : isReadCommand c with
  | true =>
    rw [dataSeq_of_read hc] at h
    cases k with
    | zero => cases h; exact .inl rfl
    | succ k =>
      obtain ⟨j, hj, hacc⟩ := getElem?_flatMap_blocks_eq_some (by decide) (fun _ => readByteSeq_length _) h
      obtain ⟨hblock, hjn⟩ := bufSlots_getElem?_eq_some.mp hj
      rcases readByteSeq_cases hacc with ⟨-, sck, rfl⟩ | ⟨i, hi, rfl⟩
      · exact .inl rfl
      · exact .inr ⟨rfl, j, i, hjn, by omega, rfl⟩
  | false =>
    by_cases hne : c = 0x60#8
    · rw [hne, dataSeq_reset] at h
      cases h
    · rw [dataSeq_of_write hc hne] at h
      obtain ⟨j, -, hj⟩ := List.mem_flatMap.mp (List.mem_of_getElem? h)
      rw [writeByteSeq_eq_bitGroups] at hj
      exact .inl (writesRegister_of_mem_bitGroups hj)

/-- Every access of a transaction is a register write, or a read command's sample of a bit of BUF at the bit's own place (spec
R181-R186). -/
theorem txnSeq_cases {c : Byte} {n k : Nat} {buf : Vector Byte 7} {acc : Access} (h : (txnSeq c n buf)[k]? = some acc) :
    writesRegister acc = true ∨ isReadCommand c = true ∧ ∃ (j : Fin 7) (i : Fin 8), j.val < n ∧
      k = 37 + 56 * j.val + 7 * i.val + 6 ∧ acc = .gpioRead 0xC4#8 (.sample (.buf j) i) := by
  rw [txnSeq, List.getElem?_append] at h
  split_ifs at h
  · rw [txnBody, List.getElem?_append] at h
    split_ifs at h with hdata
    · exact .inl (writesRegister_of_mem_open_command (List.mem_of_getElem? h))
    · rw [open_command_length] at h hdata
      refine (dataSeq_cases h).imp_right fun ⟨hc, j, i, hj, hk, hacc⟩ => ⟨hc, j, i, hj, ?_, hacc⟩
      omega
  · exact .inl (writesRegister_of_mem_closeSeq _ (List.mem_of_getElem? h))

end Sys2Proof.Machine
end

section
/-! RTC_TXN and the nine commands are one routine (spec R180, R188; log 10). -/

namespace Sys2Proof.Machine

/-- A transaction's word, as the statements write it (spec R180). -/
theorem txnWord_eq_literal (c : Byte) (n : BitVec 4) :
    requestWord 0x7#4 n c 0#16 = 0x70000000#32 ||| n.setWidth 32 <<< 24 ||| c.setWidth 32 <<< 16 := by
  rw [requestWord_eq_or, BitVec.setWidth_zero, BitVec.or_zero]
  rfl

/-- The row that an OP = 7 word decodes to denotes the same transaction as RTC_TXN itself (spec R188; log 10). -/
theorem planOf_decodeTxn (c : Byte) (n : BitVec 4) (s : State) : planOf (decodeTxn c n) s = some (txnPlan c n s) := by
  unfold decodeTxn
  repeat' split
  all_goals simp_all [planOf]

/-- A transaction instruction's plan is the one routine's (spec R188). -/
theorem exists_eq_txnPlan {i : Instr} {s : State} {p : Plan} (hplan : planOf i s = some p) (htxn : isTransaction i = true) :
    ∃ c n, p = txnPlan c n s := by
  rcases planOf_cases hplan with ⟨hother, -⟩ | ⟨-, c, n, hp, -⟩
  · nomatch hother.symm.trans htxn
  · exact ⟨c, n, hp⟩

/-- A data phase has at most seven bytes (spec R99). -/
theorem le_seven_of_dataLen {p : Params} {c : Byte} {n : Nat} (h : dataLen p c = some n) : n ≤ 7 := by
  unfold dataLen at h
  split_ifs at h
  · cases h; decide
  · cases h; decide
  · cases h; decide
  · obtain ⟨m, -, rfl⟩ := Option.map_eq_some_iff.mp h; omega
  · obtain ⟨m, -, rfl⟩ := Option.map_eq_some_iff.mp h; omega

end Sys2Proof.Machine
end

section
/-! One access of a transaction (spec R180, R184, R185): a register write, or a sample into BUF. -/

namespace Sys2Proof.Machine

section
variable (p : Plan) (acc : Access) (s : State)

@[simp] theorem engineStep_result : (engineStep p acc s).result = (afterAccess acc s).result := by
  obtain ⟨_, _, _, _, h⟩ := engineStep_shape p acc s; simp [h]
@[simp] theorem engineStep_rbuf : (engineStep p acc s).rbuf = (afterAccess acc s).rbuf := by
  obtain ⟨_, _, _, _, h⟩ := engineStep_shape p acc s; simp [h]
@[simp] theorem engineStep_shadow : (engineStep p acc s).shadow = (afterAccess acc s).shadow := by
  obtain ⟨_, _, _, _, h⟩ := engineStep_shape p acc s; simp [h]
end

/-- A completed sample into BUF writes its bit there (spec R165). -/
theorem afterAccess_sampleBuf {s : State} {rs : List Byte} (a : Byte) (j : Fin 7) (i : Fin 8)
    (hout : exchangeOutcome 4 s = .ok rs) :
    afterAccess (.gpioRead a (.sample (.buf j) i)) s =
      { afterExchange (accessFrame (.gpioRead a (.sample (.buf j) i))) 4 s with
        buf := s.buf.set j (putBit s.buf[j] i.val (sampledBit rs)) } := by
  rw [afterAccess, accessCount, hout]
  rfl

/-- Setting one byte of BUF leaves the others. -/
theorem set_getElem_of_ne (buf : Vector Byte 7) {j k : Fin 7} (h : j ≠ k) (x : Byte) : (buf.set j x)[k] = buf[k] :=
  Vector.getElem_set_ne j.isLt k.isLt (Fin.val_ne_of_ne h)

/-- Putting a bit into one byte of BUF changes that bit of that byte and no other (spec R165). -/
theorem set_putBit_getLsbD (buf : Vector Byte 7) (j : Fin 7) (i : Fin 8) (b : Bool) (k : Fin 7) (m : Nat) :
    (buf.set j (putBit buf[j] i.val b))[k].getLsbD m = if k = j ∧ m = i.val then b else buf[k].getLsbD m := by
  rcases eq_or_ne k j with rfl | hne
  · simp [putBit_getLsbD]
  · rw [set_getElem_of_ne buf hne.symm, if_neg fun h => hne h.1]

end Sys2Proof.Machine
end

section
/-! The bytes that a read transaction assembles along its run (spec R165, R184). -/

namespace Sys2Proof.Machine

/-- One more answer changes what the record of answers holds at its own place only. -/
theorem getElem?_take_succ_of_ne {α : Type} (as : List α) {k m : Nat} (h : k ≠ m) :
    (as.take (k + 1))[m]? = (as.take k)[m]? := by
  have hlt : m < k + 1 ↔ m < k := by omega
  simp only [List.getElem?_take, hlt]

/-- The buffers while a read transaction of n bytes stands at access k: bit i of BUF[j] is the SIO bit of its own read once
that is made, and 0 before; BUF from n on, RESULT and RBUF have not changed since the acceptance (spec R92, R165, R184). -/
structure TxnReadSoFar (as : List LinkAnswer) (n : Nat) (buf : Vector Byte 7) (rbuf : Vector Byte Config.rbufBytes) (k : Nat)
    (s : State) : Prop where
  bits : ∀ (j : Fin 7) (i : Nat), j.val < n → i < 8 →
    s.buf[j].getLsbD i = (as.take k)[37 + 56 * j.val + 7 * i + 6]?.any answerBit
  rest : ∀ j : Fin 7, n ≤ j.val → s.buf[j] = buf[j]
  result : s.result = 0x0000#16
  rbuf : s.rbuf = rbuf

/-- The acceptance of a read command clears the bytes that it will read (spec R92). -/
theorem txnReadSoFar_accept {c : Byte} (hc : isReadCommand c = true) (as : List LinkAnswer) (n : BitVec 4) (s : State) :
    TxnReadSoFar as n.toNat s.buf s.rbuf 0 (accept (txnPlan c n s) s) := by
  have hbuf : ∀ k : Fin 7, (accept (txnPlan c n s) s).buf[k] = if k.val < n.toNat then 0x00#8 else s.buf[k] := by
    intro k
    rw [accept_buf, clearBuf_getElem, txnPlan, if_pos hc]
  refine ⟨fun j i hj _ => ?_, fun j hj => ?_, rfl, rfl⟩
  · rw [hbuf, if_pos hj, List.take_zero]
    simp
  · rw [hbuf, if_neg hj.not_gt]

/-- Each access of a read transaction carries its bytes on: only the sample of bit i of BUF[j] writes, and it writes that bit
(spec R164, R165, R184). -/
theorem TxnReadSoFar.carry {c : Byte} (hc : isReadCommand c = true) {as : List LinkAnswer} {n k : Nat}
    {buf buf₀ : Vector Byte 7} {rbuf : Vector Byte Config.rbufBytes} {acc : Access} {a : LinkAnswer} {s : State} (p : Plan)
    (hacc : (txnSeq c n buf)[k]? = some acc) (ha : as[k]? = some a)
    (hout : exchangeOutcome (accessCount acc) s = .ok a.bytes) (h : TxnReadSoFar as n buf₀ rbuf k s) :
    TxnReadSoFar as n buf₀ rbuf (k + 1) (advance p (afterAccess acc s)) := by
  rcases txnSeq_cases hacc with hwrite | ⟨-, j, i, hj, rfl, rfl⟩
  · obtain ⟨g, v, heven, rfl⟩ := writesRegister_iff.mp hwrite
    have hplace : ∀ (j : Fin 7) (i : Nat), j.val < n → i < 8 → k ≠ 37 + 56 * j.val + 7 * i + 6 := by
      rintro j i hj hi rfl
      rw [txnSeq_getElem?_sample hc hj buf hi] at hacc
      cases hacc
    rw [afterAccess_gpioWrite heven]
    refine ⟨fun j i hj hi => ?_, fun j hj => ?_, (advance_result _ _).trans h.result, (advance_rbuf _ _).trans h.rbuf⟩
    · rw [advance_buf, getElem?_take_succ_of_ne as (hplace j i hj hi)]
      exact h.bits j i hj hi
    · rw [advance_buf]
      exact h.rest j hj
  · rw [afterAccess_sampleBuf 0xC4#8 j i hout]
    refine ⟨fun j' i' hj' hi' => ?_, fun j' hj' => ?_, (advance_result _ _).trans h.result, (advance_rbuf _ _).trans h.rbuf⟩
    · rw [advance_buf, set_putBit_getLsbD, sampledBit_eq]
      split_ifs with hbit
      · obtain ⟨rfl, rfl⟩ := hbit
        simp [ha, answerBit]
      · rw [getElem?_take_succ_of_ne as (by omega)]
        exact h.bits j' i' hj' hi'
    · rw [advance_buf, set_getElem_of_ne _ (by omega)]
      exact h.rest j' hj'

end Sys2Proof.Machine
end

section
/-! The obligations of spec section 43: the session sequencer. -/

namespace Sys2Proof.Proofs

open Sys2Proof.Machine

/-- Settles O16: the phases stand one after another, and Open, Command and Close have a fixed length. -/
theorem transactionPhases : Obligations.TransactionPhases := by
  intro c n buf hn
  refine ⟨?_, ?_, ?_, txnSeq_length c n buf, List.drop_left⟩
  · rw [txnSeq_eq_phases]
    exact List.take_left' openSeq_length
  · rw [txnSeq_eq_phases, List.drop_left' openSeq_length]
    exact List.take_left' (sendCmdSeq_length c)
  · rw [txnBody_length, dataSeq_length c hn]
    unfold isReadCommand
    split_ifs <;> omega

/-- Settles O17: the bytes of the data phase are blocks of one length, which begin at index 36 or, after a read command's
write of Control, at 37. -/
theorem dataPhases : Obligations.DataPhases := by
  intro c n buf _ hne
  refine ⟨fun hc => ⟨?_, fun j i k hj hk => ?_⟩, fun hc j k hj hk => txnSeq_getElem?_write hc hne hj buf hk⟩
  · exact txnSeq_getElem?_of_dataSeq (k := 0) (by rw [dataSeq_of_read hc, List.getElem?_cons_zero])
  · rw [txnSeq_getElem?_read hc hj buf i.isLt hk]
    interval_cases k <;> rfl

/-- Settles O24: whichever row the decoder takes, the plan is that of the generic transaction. -/
theorem transactionIsOneRoutine : Obligations.TransactionIsOneRoutine := by
  intro c n s
  rw [← txnWord_eq_literal, txnWord_eq_or]
  refine ⟨?_, fun hidle hlen => request_txnPlan_accepted hidle hlen, fun hidle hlen => request_txnPlan_refused hidle hlen⟩
  exact (exec_eq_request (planOf_decodeTxn c n s)).symm

/-- Settles O36: the access is a register write, which changes no buffer, or a sample into BUF, which changes no shadow. -/
theorem transactionStepsTouchOnlyBuf : Obligations.TransactionStepsTouchOnlyBuf := by
  intro i s t p acc htxn hbusy hplan hok hacc hexec
  obtain rfl : engineStep p acc s = t := by
    rw [exec_busy hbusy hplan hok hacc] at hexec
    injection hexec
  obtain ⟨c, n, rfl⟩ := exists_eq_txnPlan hplan htxn
  rw [engineStep_result, engineStep_rbuf, engineStep_buf, engineStep_shadow]
  rcases txnSeq_cases hacc with hwrite | ⟨hc, j, b, hj, -, rfl⟩
  · obtain ⟨a, v, heven, rfl⟩ := writesRegister_iff.mp hwrite
    rw [afterAccess_gpioWrite heven]
    refine ⟨rfl, rfl, nofun, fun _ => rfl, fun _ _ => rfl, fun _ => rfl, nofun, ?_⟩
    rintro _ _ _ ⟨⟩ rfl
    rfl
  · have hclears : (txnPlan c n s).clears = n.toNat := if_pos hc
    cases hout : exchangeOutcome 4 s with
    | ok rs =>
      have hnotFail (e : LinkFail) : exchangeOutcome 4 s ≠ .fail e := by simp [hout]
      rw [afterAccess_sampleBuf 0xC4#8 j b hout]
      refine ⟨rfl, rfl, ?_, fun hnone => absurd rfl (hnone j b), fun e hfail => absurd hfail (hnotFail e),
        fun hzero => by omega, fun _ _ _ => rfl, nofun⟩
      rintro _ _ h₀ h₁ d₀ d₁ ⟨⟩ ⟨⟩ k m
      rw [set_putBit_getLsbD, sampledBit_eq]
      rfl
    | fail e =>
      rw [afterAccess_of_read_fail (acc := .gpioRead 0xC4#8 (.sample (.buf j) b)) rfl hout]
      exact ⟨rfl, rfl, nofun, fun _ => rfl, fun _ _ => rfl, fun _ => rfl, fun _ _ _ => rfl, nofun⟩

/-- Settles O39: along the run BUF holds the bits sampled so far, and after the last access these are all of them. -/
theorem readTransactionRunFillsBuf : Obligations.ReadTransactionRunFillsBuf := by
  intro s c n rest as later hidle hreset hrx hc hlen hport hanswers hfit
  rw [← txnWord_eq_literal] at hport
  have hseq : (txnSeq c n.toNat s.buf).length = 42 + 56 * n.toNat := txnSeq_length_of_read hc (le_seven_of_dataLen hlen) s.buf
  have hok : (txnPlan c n s).ok = true := by simp [txnPlan, txnOk, hlen]
  obtain ⟨t, hrun, hend, hbuf⟩ := run_of_submit_induction (TxnReadSoFar as n.toNat s.buf s.rbuf) hidle hreset hport hrx
    (decodeRequest_txnWord c n) (planOf_decodeTxn c n s) hok hanswers hfit
    (txnReadSoFar_accept hc as n { s with port := rest }) fun _ _ _ _ => TxnReadSoFar.carry hc (txnPlan c n s)
  have hsteps : 1 + (txnPlan c n s).seq.length = 43 + 56 * n.toNat := by
    rw [txnPlan, hseq]
    omega
  have hall : as.take (txnPlan c n s).seq.length = as := List.take_of_length_le hfit.length_eq.ge
  refine ⟨t, hsteps ▸ hrun, hend.phase, hend.done, hend.err, fun j i hj hi a ha => ?_, hbuf.rest, hbuf.result, hbuf.rbuf⟩
  rw [hbuf.bits j i hj hi, hall, ha, Option.any_some]

end Sys2Proof.Proofs
end

section
/-! The BCD codec of the client (spec R220-R223), in quotients and remainders by 16. -/

namespace Sys2Proof.Machine

/-- The low nibble of a byte is its remainder by 16. -/
theorem lowNibble_toNat (b : Byte) : (b &&& 0x0F#8).toNat = b.toNat % 16 :=
  Nat.and_two_pow_sub_one_eq_mod b.toNat 4

/-- The high nibble of a byte is its quotient by 16. -/
theorem highNibble_toNat (b : Byte) : (b >>> 4 &&& 0x0F#8).toNat = b.toNat / 16 := by
  have hlt : b.toNat < 256 := b.isLt
  rw [lowNibble_toNat, BitVec.toNat_ushiftRight, Nat.shiftRight_eq_div_pow]
  omega

/-- `BcdDec` by the two nibbles of the byte (spec R221). -/
theorem bcdDec_eq (b : Byte) :
    bcdDec b = if 9 < b.toNat % 16 ∨ 9 < b.toNat / 16 then none else some (b.toNat % 16 + b.toNat / 16 * 10) := by
  rw [bcdDec, lowNibble_toNat, highNibble_toNat]

/-- The byte that holds the tens of n in its high nibble and the units in its low one decodes to n (spec R221). -/
theorem bcdDec_of_toNat_eq {b : Byte} {n : Nat} (hn : n ≤ 99) (hb : b.toNat = n / 10 * 16 + n % 10) : bcdDec b = some n := by
  have hlow : b.toNat % 16 = n % 10 := by omega
  have hhigh : b.toNat / 16 = n / 10 := by omega
  rw [bcdDec_eq, hlow, hhigh, if_neg (by omega), Nat.mod_add_div']

/-- `BcdEnc` on its domain: the tens in the high nibble, the units in the low one (spec R220). -/
theorem bcdEnc_of_range {v : Int} (h₀ : 0 ≤ v) (h₉₉ : v ≤ 99) :
    ∃ b, bcdEnc v = some b ∧ b.toNat = v.toNat / 10 * 16 + v.toNat % 10 := by
  refine ⟨_, if_pos ⟨h₀, h₉₉⟩, ?_⟩
  have hunits : v.toNat % 10 < 2 ^ 4 := by omega
  rw [← Nat.shiftLeft_add_eq_or_of_lt hunits, Nat.shiftLeft_eq, BitVec.toNat_ofNat]
  exact Nat.mod_eq_of_lt (by omega)

/-- `BcdEnc` outside its domain is DATA (spec R220). -/
theorem bcdEnc_of_out_of_range {v : Int} (h : v < 0 ∨ 99 < v) : bcdEnc v = none :=
  if_neg (by omega)

/-- Masking bit 7 takes the PM flag off again, if the byte under it has bit 7 clear (spec R223). -/
theorem hourDec_or_pmFlag {b : Byte} (hb : b.toNat < 128) (pm : Prop) [Decidable pm] :
    hourDec (b ||| if pm then 0x80#8 else 0x00#8) = bcdDec b := by
  have hflag : (if pm then 0x80#8 else 0x00#8) &&& 0x7F#8 = 0#8 := by split <;> rfl
  have hmask : b &&& 0x7F#8 = b :=
    BitVec.eq_of_toNat_eq ((Nat.and_two_pow_sub_one_eq_mod b.toNat 7).trans (Nat.mod_eq_of_lt hb))
  rw [hourDec, BitVec.and_or_distrib_right, hflag, hmask, BitVec.or_zero]

/-- Bit 7 is the PM flag, if the byte under it has bit 7 clear (spec R222). -/
theorem getLsbD_seven_or_pmFlag {b : Byte} (hb : b.toNat < 128) (pm : Prop) [Decidable pm] :
    (b ||| if pm then 0x80#8 else 0x00#8).getLsbD 7 = true ↔ pm := by
  have hclear : b.getLsbD 7 = false := Nat.testBit_lt_two_pow hb
  rw [BitVec.getLsbD_or, hclear, Bool.false_or]
  split_ifs with hpm
  · exact iff_of_true rfl hpm
  · exact iff_of_false nofun hpm

/-- `HourEnc` on its domain: the BCD byte, which leaves bit 7 to the PM flag (spec R222). -/
theorem hourEnc_of_range {h : Int} (h₀ : 0 ≤ h) (h₂₃ : h ≤ 23) :
    ∃ b, hourEnc h = some (b ||| if 12 ≤ h then 0x80#8 else 0x00#8) ∧ bcdDec b = some h.toNat ∧ b.toNat < 128 := by
  obtain ⟨b, henc, hb⟩ := bcdEnc_of_range h₀ (h₂₃.trans (by decide))
  refine ⟨b, ?_, bcdDec_of_toNat_eq (by omega) hb, by omega⟩
  rw [hourEnc, if_pos ⟨h₀, h₂₃⟩, henc, Option.map_some]

end Sys2Proof.Machine
end

section
/-! The range check of a date and time before it is written (spec R226). -/

namespace Sys2Proof.Machine

/-- `dateFields` misses no field (spec R224). -/
theorem mem_dateFields (f : DateField) : f ∈ dateFields := by
  cases f <;> decide

/-- The check names exactly the fields out of their range (spec R226). -/
theorem mem_badFields {d : DateTime} {f : DateField} :
    f ∈ badFields d ↔ d.field f < f.least ∨ f.greatest < d.field f := by
  simp only [badFields, List.mem_filter, mem_dateFields, true_and, Bool.not_eq_true', decide_eq_false_iff_not]
  omega

/-- With a field out of range nothing is presented: the client is the one before the call (spec R226). -/
theorem writeDateTime_of_badFields {d : DateTime} (h : badFields d ≠ []) (c : ClientState) :
    writeDateTime d c = (.error (.data (badFields d)), c) := by
  obtain ⟨f, fs, hbad⟩ := List.exists_cons_of_ne_nil h
  simp only [writeDateTime, hbad]

end Sys2Proof.Machine
end

section
/-! The persisted snapshot, part by part (spec R250, R251). -/

namespace Sys2Proof.Machine

@[simp] theorem persistSnapshot_length (raw : Vector Byte 7) (st : Byte) (t : BitVec 64) :
    (persistSnapshot raw st t).length = 16 := by
  simp [persistSnapshot]

/-- Bytes 0..6 are the raw date (spec R250). -/
theorem byteAt_persistSnapshot_date (raw : Vector Byte 7) (st : Byte) (t : BitVec 64) (k : Fin 7) :
    byteAt (persistSnapshot raw st t) k.val = raw[k] := by
  have hk : k.val < raw.toList.length := by simp
  rw [byteAt, persistSnapshot, List.append_assoc, List.getD_append _ _ _ _ hk, List.getD_eq_getElem _ _ hk]
  exact Vector.getElem_toList _

/-- Byte 7 is the status (spec R250). -/
theorem byteAt_persistSnapshot_status (raw : Vector Byte 7) (st : Byte) (t : BitVec 64) :
    byteAt (persistSnapshot raw st t) 7 = st := by
  have hdate : raw.toList.length = 7 := Vector.length_toList
  rw [byteAt, persistSnapshot, List.append_assoc, List.getD_append_right _ _ _ _ hdate.le, hdate]
  rfl

/-- Bytes 8..15 are the timestamp, least significant byte first (spec R250). -/
theorem drop_eight_persistSnapshot (raw : Vector Byte 7) (st : Byte) (t : BitVec 64) :
    (persistSnapshot raw st t).drop 8 = le 8 t.toNat :=
  List.drop_left' (by simp)

/-- A timestamp survives its eight bytes (spec R12). -/
theorem fromLe_le_eight_toNat (t : BitVec 64) : fromLe (le 8 t.toNat) = t.toNat :=
  (fromLe_le 8 t.toNat).trans (Nat.mod_eq_of_lt t.isLt)

/-- Restoring a buffer of the right length whose first seven bytes are raw (spec R251). -/
theorem restoreSnapshot_of_length {bs : List Byte} {raw : Vector Byte 7} (hlen : bs.length = 16)
    (hraw : ∀ k : Fin 7, byteAt bs k.val = raw[k]) :
    restoreSnapshot bs =
      .ok { fields := decodeDate raw, reported := reportedFields raw, status := byteAt bs 7, time := fromLe (bs.drop 8) } := by
  have hdate : Vector.ofFn (fun k : Fin 7 => byteAt bs k.val) = raw :=
    Vector.ext fun k hk => (Vector.getElem_ofFn hk).trans (hraw ⟨k, hk⟩)
  rw [restoreSnapshot, if_neg (not_not_intro hlen), hdate]

end Sys2Proof.Machine
end

section
/-! The obligations of spec section 44: the client layers. -/

namespace Sys2Proof.Proofs

open Sys2Proof.Machine

/-- Settles O58: the nibbles are the decimal digits, and the PM flag stands in the bit that no hour's digits reach. -/
theorem bcdRoundTrips : Obligations.BcdRoundTrips := by
  refine ⟨fun v h₀ h₉₉ => ?_, fun v => bcdEnc_of_out_of_range, fun h h₀ h₂₃ => ?_, fun b hb => ?_⟩
  · obtain ⟨b, henc, hb⟩ := bcdEnc_of_range h₀ h₉₉
    exact ⟨b, henc, bcdDec_of_toNat_eq (by omega) hb⟩
  · obtain ⟨b, henc, hdec, hb⟩ := hourEnc_of_range h₀ h₂₃
    exact ⟨_, henc, (hourDec_or_pmFlag hb _).trans hdec, getLsbD_seven_or_pmFlag hb _⟩
  · rw [bcdDec_eq, if_pos hb]

/-- Settles O59: the list that the check answers is the list of the fields out of range, so it is not empty. -/
theorem badDatesTouchNothing : Obligations.BadDatesTouchNothing := by
  rintro d c ⟨f, -, hf⟩
  have hbad : badFields d ≠ [] := List.ne_nil_of_mem (mem_badFields.mpr hf)
  exact ⟨badFields d, hbad, fun _ => mem_badFields, writeDateTime_of_badFields hbad c⟩

/-- Settles O60: each of the snapshot's three parts is read back from its own bytes. -/
theorem snapshotRoundTrip : Obligations.SnapshotRoundTrip := by
  refine ⟨fun raw st t => ⟨persistSnapshot_length raw st t, ?_⟩, fun bs hlen => if_pos hlen⟩
  rw [restoreSnapshot_of_length (persistSnapshot_length raw st t) (byteAt_persistSnapshot_date raw st t),
    byteAt_persistSnapshot_status, drop_eight_persistSnapshot, fromLe_le_eight_toNat]

end Sys2Proof.Proofs
end

section
/-! A failed exchange of a running request (spec R117, R261, R266-R268): the error raised, then the jump to Close or the end. -/

namespace Sys2Proof.Machine

section
variable {acc : Access} {s : State} {e : LinkFail}

/-- A failed exchange changes no register that a read fills (spec R141-R143). -/
theorem afterAccess_reads_of_fail (hout : exchangeOutcome (accessCount acc) s = .fail e) :
    (afterAccess acc s).buf = s.buf ∧ (afterAccess acc s).rbuf = s.rbuf ∧ (afterAccess acc s).result = s.result := by
  cases hwrite : isWriteAccess acc with
  | true =>
    cases acc with
    | gpioWrite => exact ⟨rfl, rfl, rfl⟩
    | gpioRead | gpioReadN => cases hwrite
  | false =>
    rw [afterAccess_of_read_fail hwrite hout]
    exact ⟨rfl, rfl, rfl⟩

/-- A failed exchange leaves nothing pending: fewer bytes arrived than it waited for (spec R62; log 5). -/
theorem afterAccess_rx_of_fail (hout : exchangeOutcome (accessCount acc) s = .fail e) : (afterAccess acc s).rx = [] := by
  obtain ⟨hshort, -⟩ := exchangeOutcome_fail_cases hout
  rw [afterAccess_rx, List.drop_eq_nil_of_le hshort.le]

/-- A failed exchange in Close, or of a request without one, ends the request (spec R267, R268). -/
theorem engineStep_fail_ends {p : Plan} (hclose : ∀ ci, p.close = some ci → ci ≤ s.seqIdx.toNat)
    (hout : exchangeOutcome (accessCount acc) s = .fail e) :
    engineStep p acc s =
      { afterAccess acc s with phase := .idle, done := true, err := if s.err = 0#4 then failNumber e else s.err } := by
  rw [engineStep_fail hout]
  rcases takeError_cases p e (afterAccess acc s) with ⟨ci, hci, hlt, -⟩ | ⟨-, h⟩
  · rw [afterAccess_seqIdx] at hlt
    exact absurd (hclose ci hci) (Nat.not_le_of_lt hlt)
  · rw [h, ← raiseErr_failErr, ← afterAccess_err acc s]
    rfl

/-- A failed exchange before Close moves the request to its first Close access (spec R266). -/
theorem engineStep_fail_jumps {p : Plan} {ci : Nat} (hclose : p.close = some ci) (hlt : s.seqIdx.toNat < ci)
    (hout : exchangeOutcome (accessCount acc) s = .fail e) :
    engineStep p acc s =
      { afterAccess acc s with seqIdx := BitVec.ofNat 9 ci, err := if s.err = 0#4 then failNumber e else s.err } := by
  rw [engineStep_fail hout]
  rcases takeError_cases p e (afterAccess acc s) with ⟨ci', hci, -, h⟩ | ⟨hend, -⟩
  · obtain rfl : ci = ci' := Option.some.inj (hclose.symm.trans hci)
    rw [h, ← raiseErr_failErr, ← afterAccess_err acc s]
    rfl
  · have hle := hend ci hclose
    rw [afterAccess_seqIdx] at hle
    exact absurd hle (Nat.not_le_of_lt hlt)

/-- The request that a failed exchange in Close, or outside transactions, ends: at the failing access, with the first error, and
with every register that a read fills as it was (spec R261, R267, R268). -/
theorem exec_fail_ends {i : Instr} {p : Plan} (hbusy : s.phase = .busy) (hplan : planOf i s = some p) (hok : p.ok = true)
    (hacc : p.seq[s.seqIdx.toNat]? = some acc) (hout : exchangeOutcome (accessCount acc) s = .fail e)
    (hclose : ∀ ci, p.close = some ci → ci ≤ s.seqIdx.toNat) :
    ∃ t, exec i s = .next t ∧ t.phase = .idle ∧ t.done = true ∧ t.seqIdx = s.seqIdx ∧
      t.err = (if s.err = 0#4 then failNumber e else s.err) ∧ t.buf = s.buf ∧ t.rbuf = s.rbuf ∧ t.result = s.result := by
  refine ⟨_, exec_busy hbusy hplan hok hacc, ?_⟩
  rw [engineStep_fail_ends hclose hout]
  exact ⟨rfl, rfl, afterAccess_seqIdx acc s, rfl, afterAccess_reads_of_fail hout⟩

/-- A transaction whose exchange failed before Close is running at its first Close access, whatever was pending before (spec
R266; log 5). -/
theorem runsPlan_of_fail {i : Instr} {p : Plan} {ci : Nat} (hbusy : s.phase = .busy) (hreset : s.resetReq = false)
    (hdec : decode (.request s.req) = .ok i) (hplan : planOf i s = some p) (hok : p.ok = true)
    (hacc : p.seq[s.seqIdx.toNat]? = some acc) (hout : exchangeOutcome (accessCount acc) s = .fail e)
    (hclose : p.close = some ci) (hlt : s.seqIdx.toNat < ci) : RunsPlan i p (engineStep p acc s) where
  phase := by rw [engineStep_fail_jumps hclose hlt hout]; exact (afterAccess_phase acc s).trans hbusy
  reset := (engineStep_resetReq p acc s).trans hreset
  decodes := by rwa [engineStep_req]
  plan := planOf_engineStep hplan (List.mem_of_getElem? hacc)
  ok := hok
  rx := by rw [engineStep_rx, ← afterAccess_rx, afterAccess_rx_of_fail hout]

end

end Sys2Proof.Machine
end

section
/-! `WF` read off the bits of a word (spec R93), as the plans of the decoded instructions check it. -/

namespace Sys2Proof.Machine

/-- `WF` of the word with four given fields, field by field (spec R93). -/
theorem wordWF_requestWord (P : Params) (op n : BitVec 4) (a : Byte) (v : Half) :
    wordWF P (requestWord op n a v) ↔
      ((op = 0x1#4 ∨ op = 0x2#4) ∧ n = 0#4 ∧ a = 0#8 ∧ v.toNat < 256) ∨
      (op = 0x3#4 ∧ n = 0#4 ∧ a = 0#8 ∧ v = 0#16) ∨
      (op = 0x4#4 ∧ n = 0#4 ∧ a.toNat % 2 = 0) ∨
      (op = 0x5#4 ∧ n = 0#4 ∧ a.toNat % 2 = 0 ∧ v = 0#16) ∨
      (op = 0x6#4 ∧ n = 0#4 ∧ a.toNat % 2 = 0 ∧ 1 ≤ v.toNat ∧ v.toNat ≤ 16) ∨
      (op = 0x7#4 ∧ v = 0#16 ∧
        ((a = 0x60#8 ∧ n = 0#4) ∨ ((a = 0x62#8 ∨ a = 0x63#8) ∧ n = 1#4) ∨ ((a = 0x64#8 ∨ a = 0x65#8) ∧ n = 7#4) ∨
          ((a = 0x66#8 ∨ a = 0x67#8) ∧ P.nTime.map Fin.val = some n.toNat) ∨
          ((a = 0x68#8 ∨ a = 0x69#8) ∧ P.nAlarm.map Fin.val = some n.toNat))) := by
  have hop : (requestWord op n a v).extractLsb' 28 4 = op := opField_requestWord op n a v
  have hn : (requestWord op n a v).extractLsb' 24 4 = n := nField_requestWord op n a v
  have ha : (requestWord op n a v).extractLsb' 16 8 = a := aField_requestWord op n a v
  have hv : (requestWord op n a v).extractLsb' 0 16 = v := vField_requestWord op n a v
  simp only [wordWF, hop, hn, ha, hv]

/-- `N = DATALEN(A)`, command by command (spec R93, R99). -/
theorem txnOk_iff {P : Params} {c : Byte} {n : BitVec 4} :
    txnOk P c n = true ↔
      (c = 0x60#8 ∧ n = 0#4) ∨ ((c = 0x62#8 ∨ c = 0x63#8) ∧ n = 1#4) ∨ ((c = 0x64#8 ∨ c = 0x65#8) ∧ n = 7#4) ∨
        ((c = 0x66#8 ∨ c = 0x67#8) ∧ P.nTime.map Fin.val = some n.toNat) ∨
        ((c = 0x68#8 ∨ c = 0x69#8) ∧ P.nAlarm.map Fin.val = some n.toNat) := by
  have hlen (k : BitVec 4) : some k.toNat = some n.toNat ↔ n = k := by
    rw [Option.some_inj, BitVec.toNat_inj, eq_comm]
  rw [txnOk, beq_iff_eq, dataLen]
  split_ifs with h60 hStatus hDate hTime hAlarm
  · simpa [h60] using hlen 0#4
  · rcases hStatus with rfl | rfl <;> simpa using hlen 1#4
  · rcases hDate with rfl | rfl <;> simpa using hlen 7#4
  · rcases hTime with rfl | rfl <;> simp
  · rcases hAlarm with rfl | rfl <;> simp
  · simp [h60, hStatus, hDate, hTime, hAlarm]

/-- A byte in V is below 256 (spec R93). -/
theorem setWidth_toNat_lt (x : Byte) : (x.setWidth 16).toNat < 256 := by
  rw [BitVec.toNat_setWidth]
  omega

/-- A V field below 256 is a byte (spec R93). -/
theorem exists_byte_of_lt {v : Half} (h : v.toNat < 256) : ∃ x : Byte, x.setWidth 16 = v :=
  ⟨v.setWidth 8, by bv_omega⟩

/-- A request instruction's plan is well-formed when its word is (spec R93). -/
theorem planOf_ok_iff {i : Instr} {s : State} {p : Plan} (hplan : planOf i s = some p) :
    p.ok = true ↔ wordWF s.params p.word := by
  cases htxn : isTransaction i with
  | true =>
    obtain ⟨c, n, rfl⟩ := exists_eq_txnPlan hplan htxn
    exact txnOk_iff.trans (by simp [txnPlan, wordWF_requestWord])
  | false =>
    cases i with
    | bbSendCmd x =>
      cases hplan
      exact iff_of_true rfl ((wordWF_requestWord ..).mpr (.inl ⟨.inl rfl, rfl, rfl, setWidth_toNat_lt x⟩))
    | bbWriteByte x =>
      cases hplan
      exact iff_of_true rfl ((wordWF_requestWord ..).mpr (.inl ⟨.inr rfl, rfl, rfl, setWidth_toNat_lt x⟩))
    | bbReadByte => cases hplan; simp [planBbReadByte, wordWF_requestWord]
    | gpioWrite16 a v => cases hplan; simp [planGpioWrite16, wordWF_requestWord, evenAddr_iff]
    | gpioRead16 a => cases hplan; simp [planGpioRead16, wordWF_requestWord, evenAddr_iff]
    | gpioReadN a len => cases hplan; simp [planGpioReadN, wordWF_requestWord, evenAddr_iff, readLenOk]
    | rtcTxn | rtcReset | rtcWriteStatus | rtcReadStatus | rtcWriteDate | rtcReadDate | rtcWriteTime | rtcReadTime
    | rtcWriteAlarm | rtcReadAlarm => cases htxn
    | frWriteRom | frReadRom | frWriteRam | frReadRam => cases hplan

/-- A read command is told by bit 16 of the word (spec R90, R97). -/
theorem isReadCommand_aField (w : Word) : isReadCommand (aField w) = w.getLsbD 16 := by
  simp [isReadCommand, aField]

/-- Only a transaction's word has OP = 7 (spec R91). -/
theorem opField_ne_seven {i : Instr} {s : State} {p : Plan} (hplan : planOf i s = some p) (htxn : isTransaction i = false) :
    opField p.word ≠ 0x7#4 := by
  cases i with
  | bbSendCmd | bbWriteByte | bbReadByte | gpioWrite16 | gpioRead16 | gpioReadN =>
    cases hplan
    exact (opField_requestWord ..).trans_ne (by decide)
  | rtcTxn | rtcReset | rtcWriteStatus | rtcReadStatus | rtcWriteDate | rtcReadDate | rtcWriteTime | rtcReadTime
  | rtcWriteAlarm | rtcReadAlarm => cases htxn
  | frWriteRom | frReadRom | frWriteRam | frReadRam => cases hplan

/-- The bytes of BUF that a request's acceptance clears, read off its word: the first N for a read transaction, else none (spec
R92, R97). -/
theorem lt_clears_iff {i : Instr} {s : State} {p : Plan} (hplan : planOf i s = some p) (k : Nat) :
    k < p.clears ↔ opField p.word = 0x7#4 ∧ p.word.getLsbD 16 = true ∧ k < (nField p.word).toNat := by
  rcases planOf_cases hplan with ⟨htxn, -, hclears, -⟩ | ⟨-, c, n, rfl, -⟩
  · simp [hclears, opField_ne_seven hplan htxn]
  · rw [← isReadCommand_aField]
    cases hc : isReadCommand c <;> simp [txnPlan, hc]

/-- A well-formed word is the encoding of a request instruction (spec R90, R93). -/
theorem exists_encode_of_wordWF {P : Params} {w : Word} (h : wordWF P w) :
    ∃ i : Instr, i.encodable = true ∧ encode i = .request w := by
  obtain ⟨op, n, a, v, rfl⟩ : ∃ op n a v, requestWord op n a v = w := ⟨_, _, _, _, requestWord_fields w⟩
  rcases (wordWF_requestWord P op n a v).mp h with ⟨rfl | rfl, rfl, rfl, hv⟩ | ⟨rfl, rfl, rfl, rfl⟩ | ⟨rfl, rfl, ha⟩ |
    ⟨rfl, rfl, ha, rfl⟩ | ⟨rfl, rfl, ha, -⟩ | ⟨rfl, rfl, -⟩
  · obtain ⟨x, rfl⟩ := exists_byte_of_lt hv
    exact ⟨.bbSendCmd x, rfl, rfl⟩
  · obtain ⟨x, rfl⟩ := exists_byte_of_lt hv
    exact ⟨.bbWriteByte x, rfl, rfl⟩
  · exact ⟨.bbReadByte, rfl, rfl⟩
  · exact ⟨.gpioWrite16 a v, evenAddr_iff.mpr ha, rfl⟩
  · exact ⟨.gpioRead16 a, evenAddr_iff.mpr ha, rfl⟩
  · exact ⟨.gpioReadN a v, evenAddr_iff.mpr ha, rfl⟩
  · exact ⟨.rtcTxn a n, rfl, rfl⟩

/-- A well-formed word decodes to a request whose plan is well-formed (spec R92, R93). -/
theorem exists_plan_of_wordWF {s : State} {w : Word} (h : wordWF s.params w) :
    ∃ i p, decode (.request w) = .ok i ∧ planOf i s = some p ∧ p.word = w ∧ p.ok = true := by
  obtain ⟨i, hencodable, hencode⟩ := exists_encode_of_wordWF h
  have hdec : decode (.request w) = .ok i.canonical := hencode ▸ decode_encode hencodable
  obtain ⟨p, hplan, rfl⟩ := planOf_of_decode hdec s
  exact ⟨_, p, hdec, hplan, rfl, (planOf_ok_iff hplan).mpr h⟩

end Sys2Proof.Machine
end

section
/-! The obligations of spec section 60: refusal and link errors. -/

namespace Sys2Proof.Proofs

open Sys2Proof.Machine

/-- Settles O25: a well-formed word decodes to a request whose plan is well-formed; any other word decodes to no instruction, or
to one whose plan is not. -/
theorem submitAcceptsExactlyWellFormedWords : Obligations.SubmitAcceptsExactlyWellFormedWords := by
  intro s w rest hidle hreset hport
  constructor
  · intro hwf
    obtain ⟨i, p, hdec, hplan, rfl, hok⟩ := exists_plan_of_wordWF hwf
    refine ⟨clearBuf p.clears s.buf, ?_, fun k => ?_⟩
    · rw [step_submit hidle hreset hport hdec hplan, submit, if_pos hok]
      rfl
    · exact (clearBuf_getElem ..).trans (if_congr (lt_clears_iff hplan k.val) rfl rfl)
  · intro hbad
    cases hdec : decodeRequest w with
    | error why => exact step_refused hidle hreset hport hdec
    | ok i =>
      obtain ⟨p, hplan, rfl⟩ := planOf_of_decode (w := w) hdec s
      rw [step_submit hidle hreset hport hdec hplan, submit, if_neg (mt (planOf_ok_iff hplan).mp hbad)]
      rfl

/-- Settles O33: the failed access jumps to Close; from there the five Close accesses run undisturbed, and keep ERR. -/
theorem errorBeforeCloseJumpsToClose : Obligations.ErrorBeforeCloseJumpsToClose := by
  intro i s p acc e ci _ hbusy hplan hok hacc hout hclose hlt
  obtain ⟨-, hlen, hfive, -⟩ := planOf_bounds hplan
  have hci : ci + 5 = p.seq.length := hfive ci hclose
  have hjump := engineStep_fail_jumps hclose hlt hout
  have hidx : (engineStep p acc s).seqIdx.toNat = ci := by
    rw [hjump, BitVec.toNat_ofNat]
    omega
  have herr : (engineStep p acc s).err = if s.err = 0#4 then failNumber e else s.err := by rw [hjump]
  constructor
  · refine ⟨_, exec_busy hbusy hplan hok hacc, ?_, hidx, ?_, herr, ?_⟩ <;> rw [hjump]
    · exact (afterAccess_phase acc s).trans hbusy
    · exact afterAccess_done acc s
    · exact afterAccess_reads_of_fail hout
  · intro a as later hreset hdec hanswers hfit
    have hruns := runsPlan_of_fail hbusy hreset hdec hplan hok hacc hout hclose hlt
    have hfiveLeft : (p.seq.drop ci).length = 5 := by rw [List.length_drop]; omega
    obtain ⟨t, hrun, hend⟩ := hruns.run_remaining (as := as) (later := later) hlen (by rw [hidx])
      (List.ne_nil_of_length_pos (by omega)) (by rw [engineStep_answers, hanswers, List.tail_cons]) hfit
    rw [hfiveLeft] at hrun
    refine ⟨t, (run_succ (step_busy hbusy hreset hdec hplan hok hacc) 5).trans hrun, hend.phase, hend.done,
      hend.err.trans herr, hend.seqIdx, ?_⟩
    rw [hend.history, engineStep_history, hout, List.append_assoc, List.singleton_append]

/-- Settles O34: in Close the failed access ends the request. -/
theorem errorInCloseEndsTheRequest : Obligations.ErrorInCloseEndsTheRequest := by
  intro i s p acc e ci _ hbusy hplan hok hacc hout hclose hle
  refine exec_fail_ends hbusy hplan hok hacc hout fun ci' hci' => ?_
  obtain rfl : ci = ci' := Option.some.inj (hclose.symm.trans hci')
  exact hle

/-- Settles O35: a request that is no transaction has no Close to jump to. -/
theorem errorOutsideTransactionsEndsTheRequest : Obligations.ErrorOutsideTransactionsEndsTheRequest := by
  intro i s p acc e htxn hbusy hplan hok hacc hout
  obtain ⟨-, -, -, hisSome⟩ := planOf_bounds hplan
  refine exec_fail_ends hbusy hplan hok hacc hout fun ci hci => ?_
  rw [hci, htxn] at hisSome
  cases hisSome

end Sys2Proof.Proofs
end

section
/-! What a sequence costs on the link (spec R304, R305): the writes among its accesses, and the bytes sent and received. -/

namespace Sys2Proof.Machine

/-- Every access sends an 11-byte frame: its payload is a value or a requested length (spec R140-R142). -/
@[simp] theorem accessFrame_length (acc : Access) : (accessFrame acc).length = 11 := by
  cases acc <;> simp [accessFrame]

theorem bytesSent_eq (seq : List Access) : bytesSent seq = 11 * seq.length := by
  simp [bytesSent, Nat.mul_comm]

@[simp] theorem bytesReceived_cons (acc : Access) (seq : List Access) :
    bytesReceived (acc :: seq) = accessCount acc + bytesReceived seq := by
  simp [bytesReceived]

/-- A sequence of writes and 16-bit reads receives one byte for a write and four for a read (spec R140, R141). -/
theorem bytesReceived_add_writes {seq : List Access}
    (h : ∀ acc ∈ seq, accessCount acc = if isWriteAccess acc = true then 1 else 4) :
    bytesReceived seq + 3 * seq.countP isWriteAccess = 4 * seq.length := by
  induction seq with
  | nil => rfl
  | cons acc seq ih =>
    obtain ⟨hacc, hseq⟩ := List.forall_mem_cons.mp h
    have hrest := ih hseq
    rw [bytesReceived_cons, hacc, List.countP_cons, List.length_cons]
    split_ifs <;> omega

theorem accessCount_of_isWriteAccess {acc : Access} (h : isWriteAccess acc = true) : accessCount acc = 1 := by
  cases acc with
  | gpioWrite => rfl
  | gpioRead | gpioReadN => cases h

/-- A sequence of writes only: as many one-byte responses as accesses (spec R140). -/
theorem counts_of_writes_only {seq : List Access} (h : ∀ acc ∈ seq, isWriteAccess acc = true) :
    seq.countP isWriteAccess = seq.length ∧ bytesSent seq = 11 * seq.length ∧ bytesReceived seq = seq.length := by
  have hwrites : seq.countP isWriteAccess = seq.length := List.countP_eq_length.mpr h
  have hreceived := bytesReceived_add_writes fun acc hacc => by
    rw [if_pos (h acc hacc), accessCount_of_isWriteAccess (h acc hacc)]
  exact ⟨hwrites, bytesSent_eq seq, by omega⟩

theorem isWriteAccess_of_writesRegister {acc : Access} (h : writesRegister acc = true) : isWriteAccess acc = true := by
  obtain ⟨a, v, -, rfl⟩ := writesRegister_iff.mp h
  rfl

/-- The bit groups of a byte sent are writes only (spec R160). -/
theorem isWriteAccess_of_mem_bitGroups {bit : Nat → Bool} {acc : Access} (h : acc ∈ bitGroups bit) :
    isWriteAccess acc = true :=
  isWriteAccess_of_writesRegister (writesRegister_of_mem_bitGroups h)

/-- A read byte makes 16-bit accesses only (spec R164). -/
theorem accessCount_of_mem_readByteSeq (dst : SampleDst) :
    ∀ acc ∈ readByteSeq dst, accessCount acc = if isWriteAccess acc = true then 1 else 4 := by
  intro acc h
  obtain ⟨k, hk⟩ := List.mem_iff_getElem?.mp h
  rcases readByteSeq_cases hk with ⟨-, sck, rfl⟩ | ⟨i, -, rfl⟩ <;> rfl

/-- A transaction makes 16-bit accesses only (spec R181-R186). -/
theorem accessCount_of_mem_txnSeq (c : Byte) (n : Nat) (buf : Vector Byte 7) :
    ∀ acc ∈ txnSeq c n buf, accessCount acc = if isWriteAccess acc = true then 1 else 4 := by
  intro acc h
  obtain ⟨k, hk⟩ := List.mem_iff_getElem?.mp h
  rcases txnSeq_cases hk with hwrite | ⟨-, j, i, -, -, rfl⟩
  · have haccess := isWriteAccess_of_writesRegister hwrite
    rw [if_pos haccess, accessCount_of_isWriteAccess haccess]
  · rfl

/-- A read byte has 48 writes and 8 samples (spec R164). -/
theorem readByteSeq_countP (dst : SampleDst) : (readByteSeq dst).countP isWriteAccess = 48 := rfl

/-- SEQ_LEN of a write command, RTC_RESET apart (spec R199). -/
theorem txnSeq_length_of_write {c : Byte} (hc : isReadCommand c = false) (hne : c ≠ 0x60#8) {n : Nat} (hn : n ≤ 7)
    (buf : Vector Byte 7) : (txnSeq c n buf).length = 41 + 32 * n := by
  rw [txnSeq_length, txnBody_length, dataSeq_length c hn, if_neg hne, if_neg (by simp [hc])]
  omega

/-- The writes of a read command: all but the eight samples of each byte (spec R184). -/
theorem txnSeq_countP_of_read {c : Byte} (hc : isReadCommand c = true) {n : Nat} (hn : n ≤ 7) (buf : Vector Byte 7) :
    (txnSeq c n buf).countP isWriteAccess = 42 + 48 * n := by
  have hcommand : (sendCmdSeq c).countP isWriteAccess = 32 := by
    rw [sendCmdSeq_eq_bitGroups]
    exact List.countP_eq_length.mpr fun _ => isWriteAccess_of_mem_bitGroups
  have hdata : (dataSeq c n buf).countP isWriteAccess = 1 + 48 * n := by
    rw [dataSeq_of_read hc, List.countP_cons, List.countP_flatMap]
    simp [Function.comp_def, readByteSeq_countP, isWriteAccess, hn]
    omega
  have hopen : openSeq.countP isWriteAccess = 4 := rfl
  have hclose : closeSeq.countP isWriteAccess = 5 := rfl
  rw [txnSeq_eq_phases, List.countP_append, List.countP_append, List.countP_append, hopen, hcommand, hdata, hclose]
  omega

end Sys2Proof.Machine
end

section
/-! The target's lines along an undisturbed sequence (spec R36, R300): what its completed writes make of the shadow. -/

namespace Sys2Proof.Machine

/-- The shadow after a completed access: a write sets its register, a read sets none (spec R36). -/
def shadowAfter (sh : Shadow) : Access → Shadow
  | .gpioWrite a v =>
    { data := if a = 0xC4#8 then some v else sh.data
      ctrl := if a = 0xC6#8 then some v else sh.ctrl
      re := if a = 0xC8#8 then some v else sh.re }
  | .gpioRead _ _ => sh
  | .gpioReadN _ _ => sh

@[simp] theorem advance_shadow (p : Plan) (s : State) : (advance p s).shadow = s.shadow := by
  rcases advance_cases p s with ⟨-, h⟩ | ⟨-, h⟩ <;> simp [h]

/-- A completed access of a transaction leaves the shadow that `shadowAfter` says (spec R36). -/
theorem afterAccess_shadow_of_txnSeq {c : Byte} {n k : Nat} {buf : Vector Byte 7} {acc : Access} {s : State} {rs : List Byte}
    (hacc : (txnSeq c n buf)[k]? = some acc) (hout : exchangeOutcome (accessCount acc) s = .ok rs) :
    (afterAccess acc s).shadow = shadowAfter s.shadow acc := by
  rcases txnSeq_cases hacc with hwrite | ⟨-, j, i, -, -, rfl⟩
  · obtain ⟨a, v, heven, rfl⟩ := writesRegister_iff.mp hwrite
    have hout : exchangeOutcome 1 s = .ok rs := hout
    rw [afterAccess_gpioWrite heven, hout]
    rfl
  · rw [afterAccess_sampleBuf 0xC4#8 j i hout]
    rfl

/-- The shadow at access k of an undisturbed sequence, which began with the shadow `sh`: what the writes made so far leave (spec
R36). -/
def ShadowSoFar (seq : List Access) (sh : Shadow) (k : Nat) (s : State) : Prop :=
  s.shadow = (seq.take k).foldl shadowAfter sh

/-- Each access of a transaction carries the shadow on (spec R36, R143). -/
theorem ShadowSoFar.carry {c : Byte} {n k : Nat} {buf : Vector Byte 7} {sh : Shadow} {acc : Access} {s : State}
    {rs : List Byte} (p : Plan) (hacc : (txnSeq c n buf)[k]? = some acc) (hout : exchangeOutcome (accessCount acc) s = .ok rs)
    (h : ShadowSoFar (txnSeq c n buf) sh k s) : ShadowSoFar (txnSeq c n buf) sh (k + 1) (advance p (afterAccess acc s)) := by
  rw [ShadowSoFar] at h ⊢
  rw [advance_shadow, afterAccess_shadow_of_txnSeq hacc hout, h, List.take_add_one, hacc, List.foldl_append]
  rfl

/-- Open enables the mapping and sets Control to all-output (spec R182). -/
theorem foldl_shadowAfter_openSeq (sh : Shadow) :
    openSeq.foldl shadowAfter sh = { data := some 0x0005#16, ctrl := some 0x0007#16, re := some 0x0001#16 } := rfl

/-- Close leaves chip-select high and the mapping disabled, and Control as it was (spec R186). -/
theorem foldl_shadowAfter_closeSeq (sh : Shadow) :
    closeSeq.foldl shadowAfter sh = { data := some 0x0005#16, ctrl := sh.ctrl, re := some 0x0000#16 } := rfl

/-- The access does not write Control. -/
def SparesControl (acc : Access) : Prop := ∀ v, acc ≠ .gpioWrite 0xC6#8 v

theorem shadowAfter_ctrl {acc : Access} (h : SparesControl acc) (sh : Shadow) : (shadowAfter sh acc).ctrl = sh.ctrl := by
  cases acc with
  | gpioWrite a v => exact if_neg fun ha => h v (by rw [ha])
  | gpioRead | gpioReadN => rfl

theorem foldl_shadowAfter_ctrl {seq : List Access} (h : ∀ acc ∈ seq, SparesControl acc) (sh : Shadow) :
    (seq.foldl shadowAfter sh).ctrl = sh.ctrl := by
  induction seq generalizing sh with
  | nil => rfl
  | cons acc seq ih =>
    obtain ⟨hacc, hseq⟩ := List.forall_mem_cons.mp h
    rw [List.foldl_cons, ih hseq, shadowAfter_ctrl hacc]

/-- A bit group writes Data only (spec R160). -/
theorem sparesControl_of_mem_bitGroups {bit : Nat → Bool} {acc : Access} (h : acc ∈ bitGroups bit) : SparesControl acc := by
  obtain ⟨i, -, hi⟩ := List.mem_flatMap.mp h
  rcases mem_cmdBit hi with rfl | rfl <;> rintro v ⟨⟩

/-- A read byte writes Data only (spec R164). -/
theorem sparesControl_of_mem_readByteSeq {dst : SampleDst} {acc : Access} (h : acc ∈ readByteSeq dst) :
    SparesControl acc := by
  obtain ⟨k, hk⟩ := List.mem_iff_getElem?.mp h
  rcases readByteSeq_cases hk with ⟨-, sck, rfl⟩ | ⟨i, -, rfl⟩ <;> rintro v ⟨⟩

/-- The data phase of a read command turns Control to input; any other leaves it (spec R184, R185). -/
theorem foldl_shadowAfter_dataSeq_ctrl (c : Byte) (n : Nat) (buf : Vector Byte 7) (sh : Shadow) :
    ((dataSeq c n buf).foldl shadowAfter sh).ctrl = if isReadCommand c = true then some 0x0005#16 else sh.ctrl := by
  cases hc : isReadCommand c with
  | true =>
    rw [dataSeq_of_read hc, List.foldl_cons, foldl_shadowAfter_ctrl]
    · rfl
    · intro acc hacc
      obtain ⟨j, -, hj⟩ := List.mem_flatMap.mp hacc
      exact sparesControl_of_mem_readByteSeq hj
  | false =>
    by_cases hne : c = 0x60#8
    · rw [hne, dataSeq_reset]
      rfl
    · rw [dataSeq_of_write hc hne, foldl_shadowAfter_ctrl]
      · rfl
      · intro acc hacc
        obtain ⟨j, -, hj⟩ := List.mem_flatMap.mp hacc
        rw [writeByteSeq_eq_bitGroups] at hj
        exact sparesControl_of_mem_bitGroups hj

/-- A transaction ends with the lines as Close leaves them, and Control as its data phase left it (spec R300, R301). -/
theorem foldl_shadowAfter_txnSeq (c : Byte) (n : Nat) (buf : Vector Byte 7) (sh : Shadow) :
    (txnSeq c n buf).foldl shadowAfter sh =
      { data := some 0x0005#16, ctrl := some (if isReadCommand c = true then 0x0005#16 else 0x0007#16),
        re := some 0x0000#16 } := by
  have hcommand : ∀ acc ∈ sendCmdSeq c, SparesControl acc := by
    rw [sendCmdSeq_eq_bitGroups]
    exact fun _ => sparesControl_of_mem_bitGroups
  rw [txnSeq_eq_phases, List.foldl_append, List.foldl_append, List.foldl_append, foldl_shadowAfter_closeSeq,
    foldl_shadowAfter_dataSeq_ctrl, foldl_shadowAfter_ctrl hcommand, foldl_shadowAfter_openSeq, apply_ite some]

end Sys2Proof.Machine
end

section
/-! Progress of a running request whatever the link answers (spec R24, R303), and reset (spec R290). -/

namespace Sys2Proof.Machine

/-- A running request is at an access that SEQ_IDX can count (spec R24). -/
theorem EngineInv.seqIdx_lt {s : State} (h : EngineInv s) (hbusy : s.phase = .busy) : s.seqIdx.toNat < 434 := by
  obtain ⟨-, -, hrun⟩ := h
  obtain ⟨-, -, i, p, -, hplan, -, hidx⟩ := hrun hbusy
  obtain ⟨-, hlen, -, -⟩ := planOf_bounds hplan
  omega

/-- The step of a running request ends it, or goes on to a later access, whatever the link answers (spec R303). -/
theorem EngineInv.step_ends_or_goes_on {s : State} (h : EngineInv s) (hbusy : s.phase = .busy) (hreset : s.resetReq = false) :
    ∃ t, step s = .next t ∧ ((t.phase = .idle ∧ t.done = true) ∨
      (EngineInv t ∧ t.phase = .busy ∧ t.resetReq = false ∧ s.seqIdx.toNat < t.seqIdx.toNat)) := by
  have ⟨_, _, hrun⟩ := h
  obtain ⟨-, -, i, p, hdec, hplan, hok, hidx⟩ := hrun hbusy
  obtain ⟨-, hlen, hclose, -⟩ := planOf_bounds hplan
  have hacc := List.getElem?_eq_getElem hidx
  refine ⟨_, step_busy hbusy hreset hdec hplan hok hacc, ?_⟩
  rcases engineStep_ends_or_goes_on p.seq[s.seqIdx.toNat] hidx hlen hclose with ⟨hidle, hdone, -⟩ | ⟨hphase, -, hlt, -⟩
  · exact .inl ⟨hidle, hdone⟩
  · exact .inr ⟨h.of_engineStep hbusy hdec hplan hok hacc, hphase.trans hbusy, (engineStep_resetReq ..).trans hreset, hlt⟩

/-- A running request ends within as many steps as SEQ_IDX can still count (spec R24, R303). -/
theorem EngineInv.run_ends (n : Nat) {s : State} (h : EngineInv s) (hbusy : s.phase = .busy) (hreset : s.resetReq = false)
    (hn : 434 ≤ s.seqIdx.toNat + n) :
    ∃ k t, k ≤ n ∧ Host.Core.run Sys2Proof.core k s = .next t ∧ t.phase = .idle ∧ t.done = true := by
  induction n generalizing s with
  | zero => exact absurd (h.seqIdx_lt hbusy) (Nat.not_lt.mpr hn)
  | succ n ih =>
    obtain ⟨t, hstep, ⟨hidle, hdone⟩ | ⟨hinv, hbusy', hreset', hlt⟩⟩ := h.step_ends_or_goes_on hbusy hreset
    · exact ⟨1, t, Nat.le_add_left 1 n, run_succ hstep 0, hidle, hdone⟩
    · obtain ⟨k, u, hk, hrun, hend⟩ := ih hinv hbusy' hreset' (by omega)
      exact ⟨k + 1, u, Nat.succ_le_succ hk, (run_succ hstep k).trans hrun, hend⟩

/-- A reset that is asked for comes before anything else (spec R290). -/
theorem step_reset {s : State} (hreset : s.resetReq = true) : step s = .next (engineReset s) := by
  simp [step, fetch, idleEvent, hreset]

@[simp] theorem readStatus_engineReset (s : State) : readStatus (engineReset s) = 0x00#8 := by
  rw [readStatus, engineReset_phase, engineReset_done, engineReset_err]
  rfl

end Sys2Proof.Machine
end

section
/-! The obligations of spec section 70: reset and hazards. -/

namespace Sys2Proof.Proofs

open Sys2Proof.Machine

/-- Settles O18: every frame has 11 bytes, a write is answered by 1 byte and a 16-bit read by 4, so the accesses and the writes
among them give the bytes. -/
theorem accessAndByteCounts : Obligations.AccessAndByteCounts := by
  refine ⟨fun x q hq => ?_, fun dst => ?_, fun _ _ => ⟨bytesSent_eq _, rfl⟩, fun _ _ => ⟨bytesSent_eq _, rfl⟩,
    fun _ _ => ⟨bytesSent_eq _, rfl⟩, fun c n buf hn hne hc => ?_, fun c n buf hn hc => ?_, fun buf => ?_⟩
  · have hgroups : ∃ bit, q = bitGroups bit := by
      rcases List.mem_pair.mp hq with rfl | rfl
      · exact ⟨_, sendCmdSeq_eq_bitGroups x⟩
      · exact ⟨_, writeByteSeq_eq_bitGroups x⟩
    obtain ⟨bit, rfl⟩ := hgroups
    have hcounts := counts_of_writes_only (seq := bitGroups bit) fun _ => isWriteAccess_of_mem_bitGroups
    rw [bitGroups_length] at hcounts
    exact ⟨bitGroups_length bit, hcounts⟩
  · have hlen := readByteSeq_length dst
    have hwrites := readByteSeq_countP dst
    have hreceived := bytesReceived_add_writes (accessCount_of_mem_readByteSeq dst)
    exact ⟨hlen, hwrites, by rw [bytesSent_eq, hlen], by omega⟩
  · have hcounts := counts_of_writes_only (seq := txnSeq c n buf) fun _ => isWriteAccess_of_mem_txnSeq hc
    rw [txnSeq_length_of_write hc hne hn] at hcounts ⊢
    exact ⟨rfl, hcounts⟩
  · have hlen := txnSeq_length_of_read hc hn buf
    have hwrites := txnSeq_countP_of_read hc hn buf
    have hreceived := bytesReceived_add_writes (accessCount_of_mem_txnSeq c n buf)
    exact ⟨hlen, hwrites, by rw [bytesSent_eq, hlen], by omega⟩
  · have hlen : (txnSeq 0x60#8 0 buf).length = 41 := rfl
    have hcounts := counts_of_writes_only (seq := txnSeq 0x60#8 0 buf) fun _ => isWriteAccess_of_mem_txnSeq rfl
    rw [hlen] at hcounts
    exact ⟨hlen, hcounts⟩

/-- Settles O40: along the run the shadow is what the writes made so far leave of it, and after the last these are all of the
transaction's. -/
theorem transactionLeavesTheLines : Obligations.TransactionLeavesTheLines := by
  intro s w rest i p as later hidle hreset hport hrx hdec htxn hplan hok hanswers hfit
  obtain ⟨p', hplan', rfl⟩ := planOf_of_decode hdec s
  obtain rfl : p = p' := Option.some.inj (hplan.symm.trans hplan')
  obtain ⟨c, n, rfl⟩ := exists_eq_txnPlan hplan htxn
  have hread : (txnPlan c n s).word.getLsbD 16 = isReadCommand c := by
    rw [← isReadCommand_aField, txnPlan, aField_requestWord]
  obtain ⟨t, hrun, -, hshadow⟩ := run_of_submit_induction (ShadowSoFar (txnSeq c n.toNat s.buf) s.shadow) hidle hreset hport
    hrx hdec hplan hok hanswers hfit rfl fun _ _ _ _ hacc _ => ShadowSoFar.carry (txnPlan c n s) hacc
  refine ⟨t, hrun, ?_⟩
  rw [hread, ← foldl_shadowAfter_txnSeq c n.toNat s.buf s.shadow, hshadow, txnPlan, List.take_length]

/-- Settles O41: SEQ_IDX rises with every step of a running request and stays below 434. -/
theorem everyRequestEnds : Obligations.EveryRequestEnds := fun _ hinv hbusy hreset =>
  hinv.run_ends 434 hbusy hreset (Nat.le_add_left 434 _)

/-- Settles O48: the step with a reset asked for is `engineReset`, and the client's CACHE goes with it. -/
theorem resetPutsTheResetValues : Obligations.ResetPutsTheResetValues := by
  intro s hreset
  refine ⟨engineReset s, step_reset hreset, rfl, rfl, rfl, rfl, rfl, rfl, readStatus_engineReset s, rfl, rfl, rfl, rfl, ?_⟩
  rintro c rfl
  exact clientStep_eq_some.mpr ⟨step_reset hreset, by rw [if_pos hreset]⟩

end Sys2Proof.Proofs
end
